-- ==== Sys2Proof/Word.lean ====
section
/-! DEFINITION. The word types of the block: bus bytes and CPU addresses (R50, R80), PPU addresses (R51, R81). -/

namespace Sys2Proof

/-- A byte of the CPU data bus (00_scope.md P_DATA_BITS). -/
abbrev Byte := BitVec 8

/-- A CPU bus address (00_scope.md P_ADDR_BITS). -/
abbrev Addr := BitVec 16

/-- A PPU bus address (00_scope.md P_PPU_ADDR_BITS). -/
abbrev PAddr := BitVec 14

end Sys2Proof
end

