-- ==== Sys2Proof/Syntax.lean ====
section
/-! DEFINITION. What the block decodes: one constructor per row of spec/opcode_table.json (R82, R88, R89, R91, R94). -/

namespace Sys2Proof

/-- One decoded command: a bus transaction, a PPU address, an internal event, a host command or a CPU instruction. -/
inductive Instr where
  -- F-BUS: a CPU bus transaction (R80, R84 to R88); `a` the address, `v` the byte written
  /-- IRQ_LATCH_W (R121) -/
  | irqLatchW (a : Addr) (v : Byte)
  /-- IRQ_RELOAD_W (R122) -/
  | irqReloadW (a : Addr) (v : Byte)
  /-- IRQ_DISABLE_ACK_W (R123) -/
  | irqDisableAckW (a : Addr) (v : Byte)
  /-- IRQ_ENABLE_W (R124) -/
  | irqEnableW (a : Addr) (v : Byte)
  /-- BANK_W (R145, R86) -/
  | bankW (a : Addr) (v : Byte)
  /-- CART_PRG_R (R144, R87) -/
  | cartPrgR (a : Addr)
  /-- RAM_R (R141) -/
  | ramR (a : Addr)
  /-- RAM_W (R141) -/
  | ramW (a : Addr) (v : Byte)
  /-- PPU_REG_R (R142) -/
  | ppuRegR (a : Addr)
  /-- PPU_REG_W (R142) -/
  | ppuRegW (a : Addr) (v : Byte)
  /-- APU_IO_R (R143) -/
  | apuIoR (a : Addr)
  /-- APU_IO_W (R143) -/
  | apuIoW (a : Addr) (v : Byte)
  /-- CART_LOW_R (R144) -/
  | cartLowR (a : Addr)
  /-- CART_LOW_W (R145) -/
  | cartLowW (a : Addr) (v : Byte)
  -- F-PPUA: the address the PPU drives in a dot (R81, R66, R200)
  /-- PPUA_PATTERN0 (R66) -/
  | ppuaPattern0 (p : PAddr)
  /-- PPUA_PATTERN1 (R66) -/
  | ppuaPattern1 (p : PAddr)
  /-- PPUA_NAMETABLE (R66) -/
  | ppuaNametable (p : PAddr)
  /-- PPUA_PALETTE (R66) -/
  | ppuaPalette (p : PAddr)
  /-- PPUA_NT_MIRROR (R66) -/
  | ppuaNtMirror (p : PAddr)
  -- internal events (R91); they carry no data
  /-- CPU_CYCLE (R102) -/
  | cpuCycle
  /-- PPU_DOT (R103) -/
  | ppuDot
  /-- TICK (R128) -/
  | tick
  /-- BOUNDARY (R161, R162) -/
  | boundary
  /-- IRQ_SERVICE (R165) -/
  | irqService
  /-- NMI_SERVICE (R168) -/
  | nmiService
  /-- NMI_EDGE (R170) -/
  | nmiEdge
  /-- FRAME_END (R106) -/
  | frameEnd
  -- F-HOST: host commands (R82); naturals where the spec takes naturals (R232, R235)
  /-- RESET (R231) -/
  | hostReset
  /-- STEP (R232) -/
  | hostStep (input : Nat)
  /-- BUS_WRITE (R235) -/
  | hostBusWrite (addr value : Nat)
  /-- READ_FRAME (R234) -/
  | hostReadFrame
  /-- CLOSE (R236) -/
  | hostClose
  -- F-OP: CPU instructions (R83, R89, R90)
  /-- BRK, with its padding byte (R179) -/
  | brk (pad : Byte)
  /-- PHP (R176) -/
  | php
  /-- PLP (R177) -/
  | plp
  /-- RTI (R178) -/
  | rti
  /-- CLI (R175) -/
  | cli
  /-- SEI (R174) -/
  | sei
  /-- LDA #imm (R181) -/
  | ldaImm (imm : Byte)
  /-- STA abs (R182) -/
  | staAbs (addr : Addr)
  /-- NOP (R183) -/
  | nop
  /-- JMP abs (R184) -/
  | jmpAbs (addr : Addr)
  /-- UNMODELLED_OPCODE: an opcode byte outside the table of R89 (R186, R190) -/
  | unmodelledOpcode (op : Byte)
  deriving DecidableEq, Repr

/-- The internal events (R91). -/
inductive Event where
  | cpuCycle
  | ppuDot
  | tick
  | boundary
  | irqService
  | nmiService
  | nmiEdge
  | frameEnd
  deriving DecidableEq, Repr

/-- A host command as the host gives it (F-HOST, R82). -/
inductive HostCommand where
  | reset
  | step (input : Nat)
  | busWrite (addr value : Nat)
  | readFrame
  | close
  deriving DecidableEq, Repr

/-- What reaches the block from outside the CPU's own fetches, as it stands on its wires (R80, R81, R82, R91, R93). -/
inductive Stimulus where
  /-- F-BUS: `head` is {rw, addr[15:0]} (bit 16 = rw, 1 = read), `data` the data byte, not used by a read (R80). -/
  | bus (head : BitVec 17) (data : Byte)
  /-- F-PPUA: the address lines as a 16-bit word; a PPU address is its low 14 bits (R81, R94). -/
  | ppua (word : BitVec 16)
  /-- An event, which carries no data bits (R91). -/
  | event (e : Event)
  /-- F-HOST (R82). -/
  | host (c : HostCommand)
  deriving DecidableEq, Repr

/-- An encoded command: a stimulus, or the bytes of a CPU instruction in memory order (F-OP, R83). -/
inductive Code where
  | stimulus (x : Stimulus)
  | op (bytes : List Byte)
  deriving DecidableEq, Repr

end Sys2Proof
end

