-- ==== Sys2Proof/WellFormed.lean ====
section
/-! DEFINITION. Which commands are well formed: an address lies in its row's window or register, a PPU address in its
class, an unmodelled opcode outside the ten of R89. Written by ranges and address bits (R53, R56, R66, R84, R89), apart from the
decoder's table. -/

namespace Sys2Proof

/-- The address lies in lo..hi. -/
def inRange (lo hi : Nat) (a : Addr) : Bool := decide (lo ≤ a.toNat ∧ a.toNat ≤ hi)

/-- The PPU address lies in lo..hi. -/
def inPpuRange (lo hi : Nat) (p : PAddr) : Bool := decide (lo ≤ p.toNat ∧ p.toNat ≤ hi)

/-- The address selects the IRQ register in lo..hi with this parity of addr[0] (R84). -/
def selectsIrq (lo hi : Nat) (odd : Bool) (a : Addr) : Bool :=
  inRange lo hi a && (decide (a.toNat % 2 = 1) == odd)

/-- The ten opcodes of R89. -/
def tableOpcodes : List Byte := [0x00, 0x08, 0x28, 0x40, 0x58, 0x78, 0xA9, 0x8D, 0xEA, 0x4C]

/-- Every field of the command is one its row admits. -/
def Instr.wellFormed : Instr → Bool
  | .irqLatchW a _ => selectsIrq 0xC000 0xDFFF false a
  | .irqReloadW a _ => selectsIrq 0xC000 0xDFFF true a
  | .irqDisableAckW a _ => selectsIrq 0xE000 0xFFFF false a
  | .irqEnableW a _ => selectsIrq 0xE000 0xFFFF true a
  | .bankW a _ => inRange 0x8000 0xBFFF a
  | .cartPrgR a => inRange 0x8000 0xFFFF a
  | .ramR a => inRange 0x0000 0x1FFF a
  | .ramW a _ => inRange 0x0000 0x1FFF a
  | .ppuRegR a => inRange 0x2000 0x3FFF a
  | .ppuRegW a _ => inRange 0x2000 0x3FFF a
  | .apuIoR a => inRange 0x4000 0x401F a
  | .apuIoW a _ => inRange 0x4000 0x401F a
  | .cartLowR a => inRange 0x4020 0x7FFF a
  | .cartLowW a _ => inRange 0x4020 0x7FFF a
  | .ppuaPattern0 p => inPpuRange 0x0000 0x0FFF p
  | .ppuaPattern1 p => inPpuRange 0x1000 0x1FFF p
  | .ppuaNametable p => inPpuRange 0x2000 0x2FFF p
  | .ppuaPalette p => inPpuRange 0x3F00 0x3FFF p
  | .ppuaNtMirror p => inPpuRange 0x3000 0x3EFF p
  | .cpuCycle => true
  | .ppuDot => true
  | .tick => true
  | .boundary => true
  | .irqService => true
  | .nmiService => true
  | .nmiEdge => true
  | .frameEnd => true
  | .hostReset => true
  | .hostStep _ => true
  | .hostBusWrite _ _ => true
  | .hostReadFrame => true
  | .hostClose => true
  | .brk _ => true
  | .php => true
  | .plp => true
  | .rti => true
  | .cli => true
  | .sei => true
  | .ldaImm _ => true
  | .staAbs _ => true
  | .nop => true
  | .jmpAbs _ => true
  | .unmodelledOpcode op => !tableOpcodes.contains op

end Sys2Proof
end

