-- ==== Sys2Proof/Decode.lean ====
section
/-! DEFINITION. The decoder of every format (R80 to R90, R94), written from the fixed fields of spec/opcode_table.json, and the
encoder beside it. -/

namespace Sys2Proof

/-! ## Byte order (R59, R90) -/

/-- {hi, lo}: a 16-bit value from its two bytes. -/
def joinBytes (hi lo : Byte) : Addr := hi ++ lo

/-- Bits 7 to 0. -/
def lowByte (a : Addr) : Byte := a.extractLsb' 0 8

/-- Bits 15 to 8. -/
def highByte (a : Addr) : Byte := a.extractLsb' 8 8

/-! ## F-BUS (R88): rows in priority order, the first that matches decides -/

/-- The fourteen F-BUS rows of the opcode table. -/
inductive BusRow where
  | irqLatchW
  | irqReloadW
  | irqDisableAckW
  | irqEnableW
  | bankW
  | cartPrgR
  | ramR
  | ramW
  | ppuRegR
  | ppuRegW
  | apuIoR
  | apuIoW
  | cartLowR
  | cartLowW
  deriving DecidableEq, Repr

/-- Bits hi to lo of a row's word hold this value. -/
structure FixedField where
  hi : Nat
  lo : Nat
  value : Nat
  deriving DecidableEq, Repr

/-- The word w, as a number, holds the field. -/
def FixedField.holds (f : FixedField) (w : Nat) : Bool :=
  w / 2 ^ f.lo % 2 ^ (f.hi + 1 - f.lo) == f.value

/-- The F-BUS part of the opcode table over {rw, addr[15:0]}, in the order of its priorities 1 to 14. -/
def busTable : List (BusRow × List FixedField) :=
  [(.irqLatchW, [⟨0, 0, 0⟩, ⟨16, 13, 6⟩]),
   (.irqReloadW, [⟨0, 0, 1⟩, ⟨16, 13, 6⟩]),
   (.irqDisableAckW, [⟨0, 0, 0⟩, ⟨16, 13, 7⟩]),
   (.irqEnableW, [⟨0, 0, 1⟩, ⟨16, 13, 7⟩]),
   (.bankW, [⟨16, 14, 2⟩]),
   (.cartPrgR, [⟨16, 15, 3⟩]),
   (.ramR, [⟨16, 13, 8⟩]),
   (.ramW, [⟨16, 13, 0⟩]),
   (.ppuRegR, [⟨16, 13, 9⟩]),
   (.ppuRegW, [⟨16, 13, 1⟩]),
   (.apuIoR, [⟨16, 5, 2560⟩]),
   (.apuIoW, [⟨16, 5, 512⟩]),
   (.cartLowR, [⟨16, 14, 5⟩]),
   (.cartLowW, [⟨16, 14, 1⟩])]

/-- The first row of a table whose fields the word holds. -/
def firstRow (α : Type) : List (α × List FixedField) → Nat → Option α
  | [], _ => none
  | (r, fs) :: rest, w => if fs.all (fun f => f.holds w) then some r else firstRow α rest w

/-- The row of an F-BUS word {rw, addr} (R88). -/
def decodeBusRow (head : BitVec 17) : Option BusRow := firstRow BusRow busTable head.toNat

/-- The command of a row, with its address and data (R80). -/
def busInstr (r : BusRow) (a : Addr) (v : Byte) : Instr :=
  match r with
  | .irqLatchW => .irqLatchW a v
  | .irqReloadW => .irqReloadW a v
  | .irqDisableAckW => .irqDisableAckW a v
  | .irqEnableW => .irqEnableW a v
  | .bankW => .bankW a v
  | .cartPrgR => .cartPrgR a
  | .ramR => .ramR a
  | .ramW => .ramW a v
  | .ppuRegR => .ppuRegR a
  | .ppuRegW => .ppuRegW a v
  | .apuIoR => .apuIoR a
  | .apuIoW => .apuIoW a v
  | .cartLowR => .cartLowR a
  | .cartLowW => .cartLowW a v

/-- addr[15:0] of an F-BUS word. -/
def busAddr (head : BitVec 17) : Addr := head.extractLsb' 0 16

/-- {rw, addr} of an F-BUS read (R80: rw = 1). -/
def readHead (a : Addr) : BitVec 17 := BitVec.ofNat 17 (65536 + a.toNat)

/-- {rw, addr} of an F-BUS write (R80: rw = 0). -/
def writeHead (a : Addr) : BitVec 17 := BitVec.ofNat 17 a.toNat

/-! ## F-PPUA (R66, R81, R94) -/

/-- The five F-PPUA classes of the opcode table. -/
inductive PpuaRow where
  | pattern0
  | pattern1
  | nametable
  | palette
  | ntMirror
  deriving DecidableEq, Repr

/-- The F-PPUA part of the opcode table over paddr[13:0], in the order of its priorities 15 to 19. -/
def ppuaTable : List (PpuaRow × List FixedField) :=
  [(.pattern0, [⟨13, 12, 0⟩]),
   (.pattern1, [⟨13, 12, 1⟩]),
   (.nametable, [⟨13, 12, 2⟩]),
   (.palette, [⟨13, 8, 63⟩]),
   (.ntMirror, [⟨13, 12, 3⟩])]

/-- The class of a PPU address (R66). -/
def decodePpuaRow (p : PAddr) : Option PpuaRow := firstRow PpuaRow ppuaTable p.toNat

/-- The command of a class and an address. -/
def ppuaInstr (r : PpuaRow) (p : PAddr) : Instr :=
  match r with
  | .pattern0 => .ppuaPattern0 p
  | .pattern1 => .ppuaPattern1 p
  | .nametable => .ppuaNametable p
  | .palette => .ppuaPalette p
  | .ntMirror => .ppuaNtMirror p

/-! ## F-OP (R83, R89, R90) -/

/-- The ten instructions of R89. -/
inductive OpKind where
  | brk
  | php
  | plp
  | rti
  | cli
  | sei
  | ldaImm
  | staAbs
  | nop
  | jmpAbs
  deriving DecidableEq, Repr

/-- The instruction an opcode byte selects, if it is one of the ten of R89. -/
def opKind (b : Byte) : Option OpKind :=
  if b = 0x00 then some .brk
  else if b = 0x08 then some .php
  else if b = 0x28 then some .plp
  else if b = 0x40 then some .rti
  else if b = 0x58 then some .cli
  else if b = 0x78 then some .sei
  else if b = 0xA9 then some .ldaImm
  else if b = 0x8D then some .staAbs
  else if b = 0xEA then some .nop
  else if b = 0x4C then some .jmpAbs
  else none

/-- The cycles of each instruction (R89, R283). -/
def OpKind.cycles : OpKind → Nat
  | .brk => 7
  | .php => 3
  | .plp => 4
  | .rti => 6
  | .cli => 2
  | .sei => 2
  | .ldaImm => 2
  | .staAbs => 4
  | .nop => 2
  | .jmpAbs => 3

/-- Why a decoder gives no command. -/
inductive DecodeError where
  /-- A PPU address with a bit above 13 set (R94); the machine raises Fault(ppu_addr_width) for it. -/
  | ppuAddrWidth (word : BitVec 16)
  /-- Fewer bytes than the opcode's length (R83); memory never ends, so the machine never meets it. -/
  | truncated
  /-- No row matches; R88 and R94 say that this does not happen. -/
  | noRow
  deriving DecidableEq, Repr

/-- The operand bytes of one of the ten instructions, low byte first (R83, R90), and the bytes after it. -/
def decodeOperands : OpKind → List Byte → Except DecodeError (Instr × List Byte)
  | .brk, pad :: rest => .ok (.brk pad, rest)
  | .php, rest => .ok (.php, rest)
  | .plp, rest => .ok (.plp, rest)
  | .rti, rest => .ok (.rti, rest)
  | .cli, rest => .ok (.cli, rest)
  | .sei, rest => .ok (.sei, rest)
  | .ldaImm, imm :: rest => .ok (.ldaImm imm, rest)
  | .staAbs, lo :: hi :: rest => .ok (.staAbs (joinBytes hi lo), rest)
  | .nop, rest => .ok (.nop, rest)
  | .jmpAbs, lo :: hi :: rest => .ok (.jmpAbs (joinBytes hi lo), rest)
  | _, _ => .error .truncated

/-- The CPU instruction at the head of a list of bytes; the opcode byte alone fixes the length (R83). -/
def decodeOp : List Byte → Except DecodeError (Instr × List Byte)
  | [] => .error .truncated
  | b :: rest =>
    match opKind b with
    | none => .ok (.unmodelledOpcode b, rest)
    | some k => decodeOperands k rest

/-! ## Events and host commands (R82, R91) -/

/-- The command of an event. -/
def eventInstr : Event → Instr
  | .cpuCycle => .cpuCycle
  | .ppuDot => .ppuDot
  | .tick => .tick
  | .boundary => .boundary
  | .irqService => .irqService
  | .nmiService => .nmiService
  | .nmiEdge => .nmiEdge
  | .frameEnd => .frameEnd

/-- The command of a host command. -/
def hostInstr : HostCommand → Instr
  | .reset => .hostReset
  | .step input => .hostStep input
  | .busWrite a v => .hostBusWrite a v
  | .readFrame => .hostReadFrame
  | .close => .hostClose

/-! ## The whole decoder -/

/-- What a stimulus stands for. -/
def decodeStimulus : Stimulus → Except DecodeError Instr
  | .bus head data =>
    match decodeBusRow head with
    | some r => .ok (busInstr r (busAddr head) data)
    | none => .error .noRow
  | .ppua w =>
    if w.toNat < 16384 then
      match decodePpuaRow (w.extractLsb' 0 14) with
      | some r => .ok (ppuaInstr r (w.extractLsb' 0 14))
      | none => .error .noRow
    else .error (.ppuAddrWidth w)
  | .event e => .ok (eventInstr e)
  | .host c => .ok (hostInstr c)

/-- What a code stands for, total on every code. -/
def decode : Code → Except DecodeError Instr
  | .stimulus x => decodeStimulus x
  | .op bytes =>
    match decodeOp bytes with
    | .ok (i, _) => .ok i
    | .error e => .error e

/-! ## The encoder, from the same tables -/

/-- The code of a command; an F-BUS read carries no data byte, written 0 (R80). -/
def encode : Instr → Code
  | .irqLatchW a v => .stimulus (.bus (writeHead a) v)
  | .irqReloadW a v => .stimulus (.bus (writeHead a) v)
  | .irqDisableAckW a v => .stimulus (.bus (writeHead a) v)
  | .irqEnableW a v => .stimulus (.bus (writeHead a) v)
  | .bankW a v => .stimulus (.bus (writeHead a) v)
  | .cartPrgR a => .stimulus (.bus (readHead a) 0)
  | .ramR a => .stimulus (.bus (readHead a) 0)
  | .ramW a v => .stimulus (.bus (writeHead a) v)
  | .ppuRegR a => .stimulus (.bus (readHead a) 0)
  | .ppuRegW a v => .stimulus (.bus (writeHead a) v)
  | .apuIoR a => .stimulus (.bus (readHead a) 0)
  | .apuIoW a v => .stimulus (.bus (writeHead a) v)
  | .cartLowR a => .stimulus (.bus (readHead a) 0)
  | .cartLowW a v => .stimulus (.bus (writeHead a) v)
  | .ppuaPattern0 p => .stimulus (.ppua (p.setWidth 16))
  | .ppuaPattern1 p => .stimulus (.ppua (p.setWidth 16))
  | .ppuaNametable p => .stimulus (.ppua (p.setWidth 16))
  | .ppuaPalette p => .stimulus (.ppua (p.setWidth 16))
  | .ppuaNtMirror p => .stimulus (.ppua (p.setWidth 16))
  | .cpuCycle => .stimulus (.event .cpuCycle)
  | .ppuDot => .stimulus (.event .ppuDot)
  | .tick => .stimulus (.event .tick)
  | .boundary => .stimulus (.event .boundary)
  | .irqService => .stimulus (.event .irqService)
  | .nmiService => .stimulus (.event .nmiService)
  | .nmiEdge => .stimulus (.event .nmiEdge)
  | .frameEnd => .stimulus (.event .frameEnd)
  | .hostReset => .stimulus (.host .reset)
  | .hostStep input => .stimulus (.host (.step input))
  | .hostBusWrite a v => .stimulus (.host (.busWrite a v))
  | .hostReadFrame => .stimulus (.host .readFrame)
  | .hostClose => .stimulus (.host .close)
  | .brk pad => .op [0x00, pad]
  | .php => .op [0x08]
  | .plp => .op [0x28]
  | .rti => .op [0x40]
  | .cli => .op [0x58]
  | .sei => .op [0x78]
  | .ldaImm imm => .op [0xA9, imm]
  | .staAbs addr => .op [0x8D, lowByte addr, highByte addr]
  | .nop => .op [0xEA]
  | .jmpAbs addr => .op [0x4C, lowByte addr, highByte addr]
  | .unmodelledOpcode op => .op [op]

/-! ## The opcode table's numbering -/

/-- The code of a table word (log 21): up to 8 bits an F-OP opcode byte with zero operand bytes, up to 16 bits an F-PPUA
word, above that an F-BUS word {rw, addr} with its data byte in bits 31 to 24. -/
def tableCode (nbits w : Nat) : Code :=
  if nbits ≤ 8 then .op [BitVec.ofNat 8 w, 0, 0]
  else if nbits ≤ 16 then .stimulus (.ppua (BitVec.ofNat 16 w))
  else .stimulus (.bus (BitVec.ofNat 17 w) (BitVec.ofNat 8 (w / 2 ^ 24)))

/-- The command this decoder reads from a table word. -/
def decodeTableWord (nbits w : Nat) : Option Instr :=
  match decode (tableCode nbits w) with
  | .ok i => some i
  | .error _ => none

end Sys2Proof
end

