-- ==== Sys2Proof/Config.lean ====
section
/-! DEFINITION. What is fixed for one machine: the parameters of 00_scope.md section 4, their domains and this hardware's
values (D45), and the external collaborators' functions (D44), which are constants with no body: nothing can be proved of what they answer. -/

namespace Sys2Proof

/-! ## Parameters whose numbers the rules themselves write out (00_scope.md section 4; log 11) -/

/-- P_DOTS_PER_LINE (D8, R29): dots 0 to 340. -/
def Config.dotsPerLine : Nat := 341
/-- P_LINES_PER_FRAME (D8, R29): lines 0 to 261. -/
def Config.linesPerFrame : Nat := 262
/-- P_VISIBLE_LINES (D8, R207): lines 0 to 239. -/
def Config.visibleLines : Nat := 240
/-- P_VBLANK_LINE (D8, R223); vertical blank begins at its dot 1. -/
def Config.vblankLine : Nat := 241
/-- P_PRERENDER_LINE (D8, R202). -/
def Config.prerenderLine : Nat := 261
/-- P_IRQ_SEQ_CYCLES (D14, R165). -/
def Config.irqSeqCycles : Nat := 7
/-- P_RAM_BYTES (D17, R38). -/
def Config.ramBytes : Nat := 2048
/-- P_FB_WIDTH (D32, R40). -/
def Config.fbWidth : Nat := 256
/-- P_FB_HEIGHT (D32, R40). -/
def Config.fbHeight : Nat := 240

/-- The parameters whose one value the rules write out: widths, geometry, decode, sequence length, memory and picture sizes. -/
structure FixedParameters where
  dotsPerCpuCycle : Nat
  addrBits : Nat
  dataBits : Nat
  inputBits : Nat
  counterBits : Nat
  latchBits : Nat
  ppuAddrBits : Nat
  dotsPerLine : Nat
  linesPerFrame : Nat
  visibleLines : Nat
  postrenderLine : Nat
  vblankLine : Nat
  prerenderLine : Nat
  /-- P_IRQ_DECODE: the mask of the MMC3 decode. -/
  irqDecode : Nat
  irqSeqCycles : Nat
  ramBytes : Nat
  fbWidth : Nat
  fbHeight : Nat
  fbPixelBits : Nat
  deriving DecidableEq, Repr

/-- Their values: the column "value" of 00_scope.md section 4. -/
def Config.fixedParameters : FixedParameters where
  dotsPerCpuCycle := 3
  addrBits := 16
  dataBits := 8
  inputBits := 8
  counterBits := 8
  latchBits := 8
  ppuAddrBits := 14
  dotsPerLine := Config.dotsPerLine
  linesPerFrame := Config.linesPerFrame
  visibleLines := Config.visibleLines
  postrenderLine := 240
  vblankLine := Config.vblankLine
  prerenderLine := Config.prerenderLine
  irqDecode := 0xE001
  irqSeqCycles := Config.irqSeqCycles
  ramBytes := Config.ramBytes
  fbWidth := Config.fbWidth
  fbHeight := Config.fbHeight
  fbPixelBits := 6

/-! ## Parameters that an instance may set (D45, I1, D9, D15) -/

/-- The parameters whose values a model may set, which every instance carries (R41). -/
structure Settings where
  /-- P_ODD_FRAME_SKIP (D9, R104). -/
  oddFrameSkip : Bool
  /-- P_RESET_PPU_POS (D10): its line. -/
  resetLine : Nat
  /-- P_RESET_PPU_POS: its dot. -/
  resetDot : Nat
  /-- P_RESET_PPU_POS: its parity. -/
  resetOddFrame : Bool
  /-- P_STEP_END_POS (D11, R106): its line. -/
  stepEndLine : Nat
  /-- P_STEP_END_POS: its dot. -/
  stepEndDot : Nat
  /-- P_A12_LOW_MIN (D20, I1), in dots. -/
  a12LowMin : Nat
  /-- P_PRERENDER_TICKS (D21, I1). -/
  prerenderTicks : Bool
  /-- P_EXT_IRQ (D16, R43): the constant level of the other devices on the IRQ line. -/
  extIrq : Bool
  /-- P_NMI_PRESENT (D15, R162). -/
  nmiPresent : Bool
  /-- P_RESET_S (D26). -/
  resetS : Byte
  deriving DecidableEq, Repr

/-- This hardware's values: the column "value" of 00_scope.md section 4 (D45). -/
def Config.settings : Settings where
  oddFrameSkip := true
  resetLine := 261
  resetDot := 0
  resetOddFrame := false
  stepEndLine := 241
  stepEndDot := 1
  a12LowMin := 10
  prerenderTicks := true
  extIrq := false
  nmiPresent := true
  resetS := 0xFD

/-- The domains: both positions lie in the frame (R29), and every frame has the dot at which a STEP ends (R101), which dot
(261, 340) is not where the odd-frame skip drops it (R104). Log 11. -/
def Settings.valid (g : Settings) : Bool :=
  decide (g.resetLine < Config.linesPerFrame) && decide (g.resetDot < Config.dotsPerLine)
    && decide (g.stepEndLine < Config.linesPerFrame) && decide (g.stepEndDot < Config.dotsPerLine)
    && !(g.oddFrameSkip && g.stepEndLine == Config.prerenderLine && g.stepEndDot == Config.dotsPerLine - 1)

/-- Every P_ parameter of 00_scope.md section 4, as the argument a model is constructed with (D45, R239). -/
structure Parameters extends FixedParameters, Settings where
  deriving DecidableEq, Repr

/-- The parameters of this hardware. -/
def Config.parameters : Parameters := { toFixedParameters := Config.fixedParameters, toSettings := Config.settings }

/-- Every parameter is in its domain (R239; log 11). -/
def Parameters.valid (p : Parameters) : Bool := p.toFixedParameters == Config.fixedParameters && p.toSettings.valid

/-! ## Vectors (R57) -/

/-- Where the NMI vector's low byte is (R57). -/
def Config.nmiVector : Addr := 0xFFFA
/-- Where the reset vector's low byte is (R57). -/
def Config.resetVector : Addr := 0xFFFC
/-- Where the IRQ/BRK vector's low byte is (R57). -/
def Config.irqVector : Addr := 0xFFFE

/-! ## External collaborators (00_scope.md section 4, D44)

Each collaborator's own state (R41) is coded as a natural number, 0 being its power-on state (R273). An answer of
`none` is the spec's `undriven` (R148). -/

/-- `prg_read` once the banking registers have moved the mapping: banking state, PRG image, address (R65, R86). -/
opaque Config.prgBanked : Nat → List (Nat × Byte) → Addr → Byte
/-- `bank_write`: the next banking state (R145). -/
opaque Config.bankWrite : Nat → Addr → Byte → Nat
/-- `cart_low_read`: cartridge state, banking state, address; a byte or undriven, and the next cartridge state (R144). Whether the
banking registers change the answer the spec leaves open (R86, R145), and it is open here (log 3). -/
opaque Config.cartLowRead : Nat → Nat → Addr → Option Byte × Nat
/-- `cart_low_write`: cartridge state, banking state, address, byte; the next cartridge state (R145; log 3). -/
opaque Config.cartLowWrite : Nat → Nat → Addr → Byte → Nat
/-- `apu_io_read`: it sees the step's joypad byte (R143). -/
opaque Config.apuIoRead : Nat → Addr → Byte → Option Byte × Nat
/-- `apu_io_write`: the next state (R143). -/
opaque Config.apuIoWrite : Nat → Addr → Byte → Nat
/-- `ppu_reg_read` of a register other than PPUSTATUS (R142). -/
opaque Config.ppuRegRead : Nat → BitVec 3 → Option Byte × Nat
/-- `ppu_reg_write` (R142, R172). -/
opaque Config.ppuRegWrite : Nat → BitVec 3 → Byte → Nat
/-- A full PPU's PPUSTATUS bits 6 and 5, which the stub answers as 0 (R223, I12), and its state after the read. -/
opaque Config.ppuStatusBits : Nat → BitVec 2 × Nat
/-- `ppu_render_dot(line, dot)`: the pixels it writes, as (row * 256 + column, colour), and its next state (R103, R40). -/
opaque Config.ppuRenderDot : Nat → Nat → Nat → List (Nat × BitVec 6) × Nat
/-- The word on a full PPU's address lines at a dot, before it is held to the schedule's A12 and to the fetched classes (R201,
R66; log 10): PPU state, line, dot. -/
opaque Config.ppuFetchWord : Nat → Nat → Nat → BitVec 16
/-- `spr16_a12(line, n)` (R203, D24). -/
opaque Config.spr16A12 : Nat → Nat → Nat → Bool

/-- What `cpu_exec` asks of the bus in one CPU cycle: at most one access (R160, R186). -/
inductive BusRequest where
  | idle
  | read (a : Addr)
  | write (a : Addr) (v : Byte)
  deriving DecidableEq, Repr, Inhabited

/-- The CPU registers of the block that `cpu_exec` sees and leaves behind (R20). -/
structure CpuRegs where
  pc : Addr
  s : Byte
  p : Byte
  a : Byte
  deriving DecidableEq, Repr, Inhabited

/-- What `cpu_exec` leaves after one cycle: registers, whether that was the instruction's last cycle, its own state (R186). -/
structure CpuExecResult where
  regs : CpuRegs
  last : Bool
  next : Nat
  deriving DecidableEq, Repr, Inhabited

/-- The access `cpu_exec` makes in cycle k of an opcode: engine state, opcode, k, registers. -/
opaque Config.cpuExecRequest : Nat → Byte → Nat → CpuRegs → BusRequest
/-- What it leaves, given also the byte its read returned (0 where it read nothing). -/
opaque Config.cpuExecResult : Nat → Byte → Nat → CpuRegs → Byte → CpuExecResult

end Sys2Proof
end

