-- ==== Sys2Proof/Machine/State.lean ====
section
/-! DEFINITION. The whole state of one instance (10_state.md; R3: one record, nothing shared), its reset value (R270, R271),
and the reasons a step can stop. -/

namespace Sys2Proof.Machine

/-! ## Stored data -/

/-- Bytes by address: addresses strictly rising, no byte equal to 0, which is what an unlisted address reads as (R38, D27). -/
abbrev Memory := List Host.Cell

/-- Colour indices by row * 256 + column, in the same form: an unlisted pixel is 0 (R40, D32). -/
abbrev FrameBuf := List (Nat × BitVec 6)

/-- The canonical form of a sparse list: keys strictly rising from lo, below hi, no entry 0. -/
def sparseWf {w : Nat} (hi : Nat) : Nat → List (Nat × BitVec w) → Bool
  | _, [] => true
  | lo, (k, v) :: rest => decide (lo ≤ k ∧ k < hi ∧ v ≠ 0#w) && sparseWf hi (k + 1) rest

/-- The form of a memory whose addresses lie in lo..hi - 1. -/
def Memory.wf (lo hi : Nat) (m : Memory) : Bool := sparseWf hi lo m

/-- The form of a frame buffer of 240 rows of 256 pixels (R40). -/
def FrameBuf.wf (f : FrameBuf) : Bool := sparseWf 61440 0 f

/-! ## The units (R1) -/

/-- `M.`: the Mapper IRQ unit (R21 to R25). -/
structure Mapper where
  counter : Byte
  latch : Byte
  reloadPending : Bool
  enabled : Bool
  irqLine : Bool
  deriving DecidableEq, Repr

/-- `E.`: the A12 edge detector (R27). -/
structure Edge where
  prevA12 : Bool
  lowRun : Nat
  firedLine : Bool
  deriving DecidableEq, Repr

/-- `A.`: the interrupt arbiter (R28). -/
structure Arbiter where
  nmiPrev : Bool
  nmiPending : Bool
  deriving DecidableEq, Repr

/-- `T.`: the scheduler (R29, R30). -/
structure Scheduler where
  line : Nat
  dot : Nat
  oddFrame : Bool
  frameDone : Bool
  cpuCycles : Nat
  joypad : Byte
  deriving DecidableEq, Repr

/-- `B.`: the bus dispatcher (R32). -/
structure BusUnit where
  openBus : Byte
  deriving DecidableEq, Repr

/-- `C.op`: the operation in progress; k is the number of the next cycle to perform (R37). -/
inductive Op where
  /-- The next CPU action is an instruction boundary. -/
  | none
  /-- insn(fetch): the next cycle fetches an opcode (R162, R180). -/
  | fetch
  /-- insn(opcode, operand bytes read so far, k, n). -/
  | insn (opcode : Byte) (operands : List Byte) (k n : Nat)
  /-- An instruction handed to `cpu_exec`, before its cycle k (R186). -/
  | external (opcode : Byte) (k : Nat)
  /-- irq_seq(k), with the vector's low byte once read (R165). -/
  | irqSeq (k : Nat) (lo : Byte)
  /-- nmi_seq(k), with the vector's low byte once read (R168). -/
  | nmiSeq (k : Nat) (lo : Byte)
  /-- dma(page, k, n), with the byte last read (R172). -/
  | dma (page : Byte) (k n : Nat) (b : Byte)
  deriving DecidableEq, Repr

/-- `C.`: the CPU interface state (R33 to R37). -/
structure Cpu where
  pc : Addr
  s : Byte
  p : Byte
  a : Byte
  op : Op
  dmaPending : Option Byte
  deriving DecidableEq, Repr

/-- `P.`: the PPU stub's registers (R39). -/
structure Ppu where
  ctrl : Byte
  mask : Byte
  vblank : Bool
  deriving DecidableEq, Repr

/-- The command a protocol fault names (R250, codes 1 and 2). -/
inductive CommandName where
  | reset
  | step
  | busWrite
  | readFrame
  deriving DecidableEq, Repr

/-- The fault reasons of R250 with the information each records. -/
inductive FaultReason where
  /-- Code 1: STEP or BUS_WRITE before the first RESET. -/
  | notReset (command : CommandName)
  /-- Code 2: a command after CLOSE. -/
  | closed (command : CommandName)
  /-- Code 3: BUS_WRITE with addr > $FFFF. -/
  | addrOutOfRange (addr : Nat)
  /-- Code 4: BUS_WRITE with value > $FF. -/
  | valueOutOfRange (value : Nat)
  /-- Code 5: a PPU address with a bit above 13 set, and the position. -/
  | ppuAddrWidth (addr line dot : Nat)
  /-- Code 6: an opcode outside R89 with no `cpu_exec`, and its address; reported as refused. -/
  | unmodelledOpcode (address : Addr) (opcode : Byte)
  deriving DecidableEq, Repr

/-- The outcome of a host command, kept distinct as R5 asks. There is no case `stuck`: that every collaborator answers is the
assumption that I10 allows (log 24). -/
inductive Reply where
  /-- The command returned (RESET, BUS_WRITE, CLOSE). -/
  | done
  /-- The command returned a frame (STEP, READ_FRAME). -/
  | frame (f : FrameBuf)
  /-- Outcome fault(reason, info). -/
  | fault (r : FaultReason)
  /-- Outcome refused(reason, info) (R190). -/
  | refused (r : FaultReason)
  deriving DecidableEq, Repr

/-- `H.`: the host-visible state (R31, R40), and the model's own reply and inbox. -/
structure HostSide where
  fb : FrameBuf
  frame : FrameBuf
  resetDone : Bool
  closed : Bool
  fault : Option FaultReason
  /-- The model's: what the last host command returned (log 1). -/
  reply : Reply
  /-- The model's: a STEP is in progress (log 2). -/
  inStep : Bool
  /-- The model's: the stimuli still to come, oldest first (R93, log 2). -/
  inbox : List Stimulus
  deriving DecidableEq, Repr

/-- The external collaborators of the instance: which it has (parameters, R41), and the state each carries of its own (R41,
R273), coded as a natural number with 0 at power-on (log 3). -/
structure External where
  /-- A CPU engine `cpu_exec` is supplied (R186), or not (R190). -/
  cpuExec : Bool
  /-- A full PPU stands behind the stub: registers 3 to 7, pixels, sprites (R142, R103, R203), or none does (D24, 95). -/
  fullPpu : Bool
  /-- The full PPU drives 16 address lines instead of 14 (R94; log 9). -/
  widePpu : Bool
  /-- An APU/IO device answers $4000-$401F (R143), or nothing drives it. -/
  apuIo : Bool
  /-- The cartridge has devices at $4020-$7FFF and banking registers (R144, R145), or neither. -/
  cart : Bool
  cpuSt : Nat
  ppuSt : Nat
  apuSt : Nat
  cartSt : Nat
  /-- The banking registers ($8000-$BFFF), which only `bank_write` moves (R145; log 3). -/
  bankSt : Nat
  deriving DecidableEq, Repr

/-- The state of one instance. -/
structure State where
  mapper : Mapper
  edge : Edge
  arb : Arbiter
  sched : Scheduler
  bus : BusUnit
  cpu : Cpu
  ppu : Ppu
  host : HostSide
  ext : External
  /-- `RAM[0..2047]` (R38). -/
  ram : Memory
  /-- The cartridge's PRG image behind `prg_read`, $8000-$FFFF: a parameter (R41). -/
  prg : Memory
  /-- The P_ parameters that this instance was constructed with, as far as a model may set them (R41, R239, D45). -/
  params : Settings
  deriving DecidableEq, Repr

/-- Why a step stops with a fault. The spec's own faults (R250) are no stops: they are recorded in `host.fault` and returned in
`host.reply`, and RESET recovers from them. -/
inductive Fault where
  /-- Raised by STEP when a frame does not end within the 29781 CPU cycles that every legal position needs (R101, R106).
  No state with a legal position raises it. Safe: it stops where the spec gives no position. -/
  | frameNeverEnds
  deriving DecidableEq, Repr

/-- Why a step refuses a command. -/
inductive Refusal where
  /-- Raised by exec's arm of a command that has no meaning yet, by its mnemonic. Safe: nothing is claimed of it. -/
  | notModelled (mnemonic : String)
  /-- Raised by step for a stimulus that no row of the opcode table matches. R88 and R94 say that there is none, and none is. Safe. -/
  | noRow
  deriving DecidableEq, Repr

/-! ## Reset (R270, R271; the values are the tables of 10_state.md) -/

/-- The machine right after RESET, of an instance with an empty PRG image, so that the reset vector reads $0000 (log 4), with none
of the external collaborators supplied (log 3), and with the P_ parameters at this hardware's values (D45). -/
def State.reset : State where
  mapper := { counter := 0, latch := 0, reloadPending := false, enabled := false, irqLine := false }
  edge := { prevA12 := false, lowRun := 0, firedLine := false }
  arb := { nmiPrev := false, nmiPending := false }
  sched := { line := 261, dot := 0, oddFrame := false, frameDone := false, cpuCycles := 0, joypad := 0 }
  bus := { openBus := 0 }
  cpu := { pc := 0x0000, s := 0xFD, p := 0x04, a := 0x00, op := .none, dmaPending := none }
  ppu := { ctrl := 0x00, mask := 0x00, vblank := false }
  host := { fb := [], frame := [], resetDone := true, closed := false, fault := none, reply := .done, inStep := false,
            inbox := [] }
  ext := { cpuExec := false, fullPpu := false, widePpu := false, apuIo := false, cart := false,
           cpuSt := 0, ppuSt := 0, apuSt := 0, cartSt := 0, bankSt := 0 }
  ram := []
  prg := []
  params := Config.settings

end Sys2Proof.Machine
end

