-- ==== Sys2Proof/Machine/Flags.lean ====
section
/-! DEFINITION. Every flag computation of the spec: the CPU status byte (R35, R167, R174 to R181), the PPU control bits the block
reads (R39, R221, R222), and the derived signals (R26, R43). -/

namespace Sys2Proof.Machine

/-! ## The CPU status byte (R35) -/

/-- `C.I` (R35). -/
def flagI (p : Byte) : Bool := p.getLsbD 2

/-- `C.I <- 1` (R165, R174, R179). -/
def setI (p : Byte) : Byte := p ||| 0x04

/-- `C.I <- 0` (R175). -/
def clearI (p : Byte) : Byte := p &&& 0xFB

/-- pushed_status(P, B): bit 5 set, bit 4 = B (R167). -/
def pushedStatus (p : Byte) (b : Bool) : Byte :=
  (p &&& 0xEF) ||| 0x20 ||| (if b then 0x10 else 0x00)

/-- A pulled status byte: bits 5 and 4 are not stored (R35, R177, R178). -/
def pulledStatus (v : Byte) : Byte := v &&& 0xCF

/-- N and Z of a loaded byte; the other flags stay (R181). -/
def loadFlags (p imm : Byte) : Byte :=
  (p &&& 0x7D) ||| (imm &&& 0x80) ||| (if imm = 0 then 0x02 else 0x00)

/-- The status byte after a cycle of `cpu_exec`: its own flags, but bits 5 and 4 are not stored (R35) and `C.I` is written by
SEI, CLI, PLP, RTI, BRK and the services alone (R44, R186; log 7). -/
def engineStatus (old new : Byte) : Byte := (new &&& 0xCB) ||| (old &&& 0x04)

/-! ## The PPU registers the block reads (R39) -/

/-- `P.ctrl[3]`: sprite pattern table (R221). -/
def ctrlSprite (c : Byte) : Bool := c.getLsbD 3

/-- `P.ctrl[4]`: background pattern table (R221). -/
def ctrlBackground (c : Byte) : Bool := c.getLsbD 4

/-- `P.ctrl[5]`: 8x16 sprites (R221). -/
def ctrlTall (c : Byte) : Bool := c.getLsbD 5

/-- `P.ctrl[7]`: NMI enable (R221). -/
def ctrlNmi (c : Byte) : Bool := c.getLsbD 7

/-- rendering_enabled = P.mask[3] OR P.mask[4] (R43, R222). -/
def renderingEnabled (s : State) : Bool := s.ppu.mask.getLsbD 3 || s.ppu.mask.getLsbD 4

/-- cpu_irq = M.irq_line OR P_EXT_IRQ (R43). -/
def cpuIrq (s : State) : Bool := s.mapper.irqLine || s.params.extIrq

/-- {P.vblank, bits 6 and 5, B.open_bus[4:0]}: the PPUSTATUS byte (R223). -/
def statusByte (vblank : Bool) (bits : BitVec 2) (openBus : Byte) : Byte :=
  (if vblank then 0x80 else 0x00) ||| (bits.setWidth 8 <<< 5) ||| (openBus &&& 0x1F)

/-! ## The named states of the mapper (R26): a view -/

/-- {Disabled, ArmedWaitingReload, Counting} (R26). -/
inductive MapperView where
  | disabled
  | armedWaitingReload
  | counting
  deriving DecidableEq, Repr

/-- state(M) (R26). -/
def mapperView (m : Mapper) : MapperView :=
  if m.enabled = false then .disabled
  else if m.reloadPending then .armedWaitingReload
  else .counting

end Sys2Proof.Machine
end

