-- ==== Sys2Proof/Machine/Ops.lean ====
section
/-! DEFINITION. The named operations on the state: sparse memory, register updates, the external collaborators, the Mapper IRQ
unit (R120 to R133), the PPU stub (R220 to R223), the bus dispatcher (R140 to R151), the stack (R166), raising a fault (R250), and
taking an interrupt and returning from it (R165, R168, R178, R179). -/

namespace Sys2Proof.Machine

/-! ## Sparse lists: an unlisted key reads as 0 (R38, R40) -/

/-- The entry at a key. -/
def sparseRead {w : Nat} : List (Nat × BitVec w) → Nat → BitVec w
  | [], _ => 0#w
  | (k, v) :: rest, key => if key = k then v else sparseRead rest key

/-- Write the entry at a key; writing 0 removes it, so the form stays canonical. -/
def sparseWrite {w : Nat} : List (Nat × BitVec w) → Nat → BitVec w → List (Nat × BitVec w)
  | [], key, x => if x = 0#w then [] else [(key, x)]
  | (k, v) :: rest, key, x =>
    if key < k then (if x = 0#w then (k, v) :: rest else (key, x) :: (k, v) :: rest)
    else if key = k then (if x = 0#w then rest else (key, x) :: rest)
    else (k, v) :: sparseWrite rest key x

/-! ## Register updates: one field, nothing else -/

/-- `B.open_bus <- v`. -/
def setOpenBus (s : State) (v : Byte) : State := { s with bus := { s.bus with openBus := v } }
/-- `C.PC <- v`. -/
def setPc (s : State) (v : Addr) : State := { s with cpu := { s.cpu with pc := v } }
/-- `C.S <- v`. -/
def setS (s : State) (v : Byte) : State := { s with cpu := { s.cpu with s := v } }
/-- `C.P <- v`. -/
def setP (s : State) (v : Byte) : State := { s with cpu := { s.cpu with p := v } }
/-- `C.A <- v`. -/
def setA (s : State) (v : Byte) : State := { s with cpu := { s.cpu with a := v } }
/-- `C.op <- v`. -/
def setOp (s : State) (v : Op) : State := { s with cpu := { s.cpu with op := v } }
/-- `C.dma_pending <- v`. -/
def setDma (s : State) (v : Option Byte) : State := { s with cpu := { s.cpu with dmaPending := v } }
/-- Write the Mapper IRQ unit. -/
def setMapper (s : State) (v : Mapper) : State := { s with mapper := v }
/-- Write the edge detector. -/
def setEdge (s : State) (v : Edge) : State := { s with edge := v }
/-- Write the arbiter. -/
def setArb (s : State) (v : Arbiter) : State := { s with arb := v }
/-- Write the scheduler. -/
def setSched (s : State) (v : Scheduler) : State := { s with sched := v }
/-- `P.ctrl <- v`. -/
def setCtrl (s : State) (v : Byte) : State := { s with ppu := { s.ppu with ctrl := v } }
/-- `P.mask <- v`. -/
def setMask (s : State) (v : Byte) : State := { s with ppu := { s.ppu with mask := v } }
/-- `P.vblank <- v`. -/
def setVblank (s : State) (v : Bool) : State := { s with ppu := { s.ppu with vblank := v } }
/-- Write the host side. -/
def setHost (s : State) (v : HostSide) : State := { s with host := v }
/-- Write the external collaborators' states. -/
def setExt (s : State) (v : External) : State := { s with ext := v }
/-- Write the RAM. -/
def setRam (s : State) (v : Memory) : State := { s with ram := v }

/-! ## Outcomes of commands (R5, R237, R250) -/

/-- The outcome a reason is reported as where it is raised: code 6 as refused, every other as fault (R250, R190). -/
def reasonReply : FaultReason → Reply
  | .unmodelledOpcode a op => .refused (.unmodelledOpcode a op)
  | r => .fault r

/-- What a host command returns to the host. -/
def answer (s : State) (r : Reply) : State := setHost s { s.host with reply := r }

/-- `raise Fault(reason, info)`: recorded in `H.fault`, and the outcome of the command (R250; R190 for code 6). Inside a STEP
that outcome is the STEP's own (log 1). -/
def raiseFault (s : State) (r : FaultReason) : State :=
  setHost s { s.host with fault := some r, reply := reasonReply r }

/-- A fault or refusal stands: no dot and no CPU action is performed (R250, R251). -/
def halted (s : State) : Bool := s.host.fault.isSome

/-- `raise Fault(ppu_addr_width)`, with the word and the position (R94, R250; log 9). -/
def raisePpuAddrWidth (s : State) (w : BitVec 16) : State :=
  raiseFault s (.ppuAddrWidth w.toNat s.sched.line s.sched.dot)

/-- The numeric code of a reason (R250). -/
def faultCode : FaultReason → Nat
  | .notReset _ => 1
  | .closed _ => 2
  | .addrOutOfRange _ => 3
  | .valueOutOfRange _ => 4
  | .ppuAddrWidth _ _ _ => 5
  | .unmodelledOpcode _ _ => 6

/-! ## External collaborators (R41, D44) -/

/-- `prg_read(a)`: always a byte (R144, R148); the image itself until a banking write has moved the mapping (R65; log 5). -/
def prgRead (s : State) (a : Addr) : Byte :=
  if s.ext.cart && s.ext.bankSt != 0 then Config.prgBanked s.ext.bankSt s.prg a
  else sparseRead s.prg a.toNat

/-- `bank_write(a, v)` (R145, R86): the one call that moves the banking state, which `prg_read` and the $4020-$7FFF calls see, and no
other collaborator does (the model's choice: log 3). -/
def bankWrite (s : State) (a : Addr) (v : Byte) : State :=
  if s.ext.cart then setExt s { s.ext with bankSt := Config.bankWrite s.ext.bankSt a v } else s

/-- `cart_low_read(a)`: a byte, or undriven (R144, R148). It sees the banking state and leaves it (log 3). -/
def cartLowRead (s : State) (a : Addr) : Option Byte × State :=
  if s.ext.cart then
    ((Config.cartLowRead s.ext.cartSt s.ext.bankSt a).1, setExt s { s.ext with cartSt := (Config.cartLowRead s.ext.cartSt s.ext.bankSt a).2 })
  else (none, s)

/-- `cart_low_write(a, v)` (R145). It sees the banking state and leaves it (log 3). -/
def cartLowWrite (s : State) (a : Addr) (v : Byte) : State :=
  if s.ext.cart then setExt s { s.ext with cartSt := Config.cartLowWrite s.ext.cartSt s.ext.bankSt a v } else s

/-- `apu_io_read(a, T.joypad)`: a byte, or undriven (R143, R148). -/
def apuIoRead (s : State) (a : Addr) : Option Byte × State :=
  if s.ext.apuIo then
    ((Config.apuIoRead s.ext.apuSt a s.sched.joypad).1,
     setExt s { s.ext with apuSt := (Config.apuIoRead s.ext.apuSt a s.sched.joypad).2 })
  else (none, s)

/-- `apu_io_write(a, v)` (R143). -/
def apuIoWrite (s : State) (a : Addr) (v : Byte) : State :=
  if s.ext.apuIo then setExt s { s.ext with apuSt := Config.apuIoWrite s.ext.apuSt a v } else s

/-- `ppu_reg_read(r)` of a register other than 2: a byte, or undriven (R142, R148). -/
def ppuRegRead (s : State) (r : BitVec 3) : Option Byte × State :=
  if s.ext.fullPpu then
    ((Config.ppuRegRead s.ext.ppuSt r).1, setExt s { s.ext with ppuSt := (Config.ppuRegRead s.ext.ppuSt r).2 })
  else (none, s)

/-- `ppu_reg_write(r, v)` (R142, R172). -/
def ppuRegWrite (s : State) (r : BitVec 3) (v : Byte) : State :=
  if s.ext.fullPpu then setExt s { s.ext with ppuSt := Config.ppuRegWrite s.ext.ppuSt r v } else s

/-- PPUSTATUS bits 6 and 5: 0 in the stub, a full PPU's own (R223, I12). -/
def ppuStatusBits (s : State) : BitVec 2 × State :=
  if s.ext.fullPpu then
    ((Config.ppuStatusBits s.ext.ppuSt).1, setExt s { s.ext with ppuSt := (Config.ppuStatusBits s.ext.ppuSt).2 })
  else (0, s)

/-- `spr16_a12(line, n)`: 1 for every slot without sprite data (R203, D24). -/
def spr16A12 (s : State) (line n : Nat) : Bool :=
  if s.ext.fullPpu then Config.spr16A12 s.ext.ppuSt line n else true

/-- Write a list of pixels; one outside the 240 x 256 grid is no pixel (R40, D32). -/
def writePixels (fb : FrameBuf) (ps : List (Nat × BitVec 6)) : FrameBuf :=
  ps.foldl (fun f p => if p.1 < Config.fbWidth * Config.fbHeight then sparseWrite f p.1 p.2 else f) fb

/-- `ppu_render_dot(l, d)`: it writes `H.fb` only (R103, R40). -/
def renderDot (s : State) (l d : Nat) : State :=
  if s.ext.fullPpu then
    setExt (setHost s { s.host with fb := writePixels s.host.fb (Config.ppuRenderDot s.ext.ppuSt l d).1 })
      { s.ext with ppuSt := (Config.ppuRenderDot s.ext.ppuSt l d).2 }
  else s

/-! ## The Mapper IRQ unit (41_mapper_irq.md) -/

/-- IRQ_LATCH (R121). -/
def latchWrite (m : Mapper) (v : Byte) : Mapper := { m with latch := v }

/-- IRQ_RELOAD: the data byte is ignored (R122, R85). -/
def reloadWrite (m : Mapper) : Mapper := { m with reloadPending := true }

/-- IRQ_DISABLE_ACK: the data byte is ignored (R123, R85). -/
def disableAckWrite (m : Mapper) : Mapper := { m with enabled := false, irqLine := false }

/-- IRQ_ENABLE: the data byte is ignored (R124, R85). -/
def enableWrite (m : Mapper) : Mapper := { m with enabled := true }

/-- The four IRQ registers. -/
inductive IrqReg where
  | latch
  | reload
  | disableAck
  | enable
  deriving DecidableEq, Repr

/-- The register a write in $C000-$FFFF selects, by addr[13] and addr[0] (R84). -/
def irqRegOf (a : Addr) : IrqReg :=
  if a.getLsbD 13 then (if a.getLsbD 0 then .enable else .disableAck)
  else (if a.getLsbD 0 then .reload else .latch)

/-- A write to one of the four registers (R120). -/
def irqRegWrite (m : Mapper) (r : IrqReg) (v : Byte) : Mapper :=
  match r with
  | .latch => latchWrite m v
  | .reload => reloadWrite m
  | .disableAck => disableAckWrite m
  | .enable => enableWrite m

/-- The first half of a tick: reload, or count down and stop at 0 (R128). -/
def countTick (m : Mapper) : Mapper :=
  if m.reloadPending then { m with counter := m.latch, reloadPending := false }
  else if m.counter ≠ 0 then { m with counter := m.counter - 1 }
  else m

/-- `tick()` (R128). -/
def mapperTick (m : Mapper) : Mapper :=
  if (countTick m).counter = 0 ∧ (countTick m).enabled = true then { countTick m with irqLine := true }
  else countTick m

/-! ## The bus dispatcher (42_bus_dispatch.md) -/

/-- The targets of `route` (R140). -/
inductive Target where
  | ram
  | ppuReg
  | apuIo
  | cartLow
  | cartPrg
  | cartBank
  | mapperIrq
  deriving DecidableEq, Repr

/-- `route(rw, a)`, total and a function of its arguments alone (R140). -/
def route (read : Bool) (a : Addr) : Target :=
  if a.toNat ≤ 0x1FFF then .ram
  else if a.toNat ≤ 0x3FFF then .ppuReg
  else if a.toNat ≤ 0x401F then .apuIo
  else if a.toNat ≤ 0x7FFF then .cartLow
  else if a.toNat ≤ 0xBFFF then (if read then .cartPrg else .cartBank)
  else (if read then .cartPrg else .mapperIrq)

/-- a AND $07FF (R54). -/
def ramIndex (a : Addr) : Nat := a.toNat % Config.ramBytes

/-- a AND 7 (R55). -/
def ppuIndex (a : Addr) : BitVec 3 := a.extractLsb' 0 3

/-- The RAM target's read (R141). -/
def ramLoad (s : State) (a : Addr) : Byte := sparseRead s.ram (ramIndex a)

/-- The RAM target's write (R141). -/
def ramStore (s : State) (a : Addr) (v : Byte) : State := setRam s (sparseWrite s.ram (ramIndex a) v)

/-- `ppustatus_read()` (R223). -/
def ppuStatusRead (s : State) : Byte × State :=
  (statusByte s.ppu.vblank (ppuStatusBits s).1 s.bus.openBus, setVblank (ppuStatusBits s).2 false)

/-- The PPU register target's read (R142). -/
def ppuTargetRead (s : State) (a : Addr) : Option Byte × State :=
  if ppuIndex a = 2 then (some (ppuStatusRead s).1, (ppuStatusRead s).2) else ppuRegRead s (ppuIndex a)

/-- The PPU register target's write (R142, R221, R222). -/
def ppuTargetWrite (s : State) (a : Addr) (v : Byte) : State :=
  if ppuIndex a = 0 then ppuRegWrite (setCtrl s v) 0 v
  else if ppuIndex a = 1 then ppuRegWrite (setMask s v) 1 v
  else ppuRegWrite s (ppuIndex a) v

/-- The APU/IO target's write; $4014 also requests a DMA stall (R143, R172). -/
def apuTargetWrite (s : State) (a : Addr) (v : Byte) : State :=
  if a = 0x4014 then setDma (apuIoWrite s a v) (some v) else apuIoWrite s a v

/-- `mapper_irq_write(a, v)` (R120, R145). -/
def mapperTargetWrite (s : State) (a : Addr) (v : Byte) : State :=
  setMapper s (irqRegWrite s.mapper (irqRegOf a) v)

/-- `target_read(route(read, a), a)`: a byte or undriven (R141 to R144). -/
def targetRead (s : State) (a : Addr) : Option Byte × State :=
  match route true a with
  | .ram => (some (ramLoad s a), s)
  | .ppuReg => ppuTargetRead s a
  | .apuIo => apuIoRead s a
  | .cartLow => cartLowRead s a
  | .cartPrg => (some (prgRead s a), s)
  | .cartBank => (none, s)
  | .mapperIrq => (none, s)

/-- `target_write(route(write, a), a, v)` (R141 to R145). -/
def targetWrite (s : State) (a : Addr) (v : Byte) : State :=
  match route false a with
  | .ram => ramStore s a v
  | .ppuReg => ppuTargetWrite s a v
  | .apuIo => apuTargetWrite s a v
  | .cartLow => cartLowWrite s a v
  | .cartPrg => s
  | .cartBank => bankWrite s a v
  | .mapperIrq => mapperTargetWrite s a v

/-- The end of a CPU read: an undriven answer reads as the latch, and the value read becomes the latch (R146, R148). -/
def finishRead (r : Option Byte × State) : Byte × State :=
  match r.1 with
  | some v => (v, setOpenBus r.2 v)
  | none => (r.2.bus.openBus, r.2)

/-- `MemRead(a, 1)` (R146). -/
def memRead (s : State) (a : Addr) : Byte × State := finishRead (targetRead s a)

/-- `MemWrite(a, 1, v)` (R147). -/
def memWrite (s : State) (a : Addr) (v : Byte) : State := targetWrite (setOpenBus s v) a v

/-! ## The stack (R166) -/

/-- $0100 + C.S (R34, R58). -/
def stackAddr (s : Byte) : Addr := joinBytes 0x01 s

/-- `push(v)` (R166). -/
def push (s : State) (v : Byte) : State :=
  setS (memWrite s (stackAddr s.cpu.s) v) ((memWrite s (stackAddr s.cpu.s) v).cpu.s - 1)

/-- `pull()` (R166). -/
def pull (s : State) : Byte × State :=
  memRead (setS s (s.cpu.s + 1)) (stackAddr (s.cpu.s + 1))

/-! ## Taking an interrupt (R165, R168, R179) and returning from it (R178) -/

/-- Cycles 3 to 7 of taking an interrupt, shared by IRQ, NMI and BRK: PC and status saved on the stack, `C.I` set, `C.PC` loaded
from the vector, low byte first. `lo` is the vector's low byte once read; the answer is that byte and the state. -/
def enterCycle (vector : Addr) (brk : Bool) (k : Nat) (lo : Byte) (s : State) : Byte × State :=
  match k with
  | 3 => (lo, push s (highByte s.cpu.pc))
  | 4 => (lo, push s (lowByte s.cpu.pc))
  | 5 =>
    let t := push s (pushedStatus s.cpu.p brk)
    (lo, setP t (setI t.cpu.p))
  | 6 => memRead s vector
  | 7 =>
    let r := memRead s (vector + 1)
    (lo, setPc r.2 (joinBytes r.1 lo))
  | _ => (lo, s)

/-- One cycle of a service sequence: two dummy reads at `C.PC`, then the entry (R165, R168). -/
def serviceCycle (vector : Addr) (k : Nat) (lo : Byte) (s : State) : Byte × State :=
  match k with
  | 1 => (lo, (memRead s s.cpu.pc).2)
  | 2 => (lo, (memRead s s.cpu.pc).2)
  | _ => enterCycle vector false k lo s

/-- Cycles 4 to 6 of the return from interrupt: the status, then PC low, then PC high (R178). The answer is the PC's low byte once
pulled, and the state. -/
def returnCycle (k : Nat) (lo : Byte) (s : State) : Byte × State :=
  match k with
  | 4 => (lo, setP (pull s).2 (pulledStatus (pull s).1))
  | 5 => pull s
  | 6 => (lo, setPc (pull s).2 (joinBytes (pull s).1 lo))
  | _ => (lo, s)

end Sys2Proof.Machine
end

