-- ==== Sys2Proof/Machine/Operands.lean ====
section
/-! DEFINITION. The operand forms of a CPU instruction, one bus access each (R83, R90, R160): opcode and operand fetches, and the
dummy reads of the cycle tables of R174 to R184. -/

namespace Sys2Proof.Machine

/-- `MemRead(C.PC, 1)` and then `C.PC + 1` modulo 2^16: an opcode or operand fetch (R180 to R184, R151). -/
def fetchByte (s : State) : Byte × State :=
  ((memRead s s.cpu.pc).1, setPc (memRead s s.cpu.pc).2 (s.cpu.pc + 1))

/-- `MemRead(C.PC, 1)`, the byte discarded and `C.PC` not advanced (R174 to R178, R183). -/
def dummyRead (s : State) : State := (memRead s s.cpu.pc).2

/-- `MemRead($0100 + C.S, 1)`, the byte discarded (R177, R178). -/
def dummyStackRead (s : State) : State := (memRead s (stackAddr s.cpu.s)).2

/-- The effect of an immediate load: `C.A`, N and Z (R181). -/
def loadImmediate (s : State) (imm : Byte) : State := setP (setA s imm) (loadFlags s.cpu.p imm)

/-- The i-th operand byte read so far. -/
def operandByte (operands : List Byte) (i : Nat) : Byte := operands.getD i 0

/-- The absolute operand {hi, lo} of the bytes read so far (R90). -/
def absoluteOperand (operands : List Byte) : Addr := joinBytes (operandByte operands 1) (operandByte operands 0)

end Sys2Proof.Machine
end

