-- ==== Sys2Proof/Machine/PpuDot.lean ====
section
/-! DEFINITION. The PPU address decoder (R200 to R209), the NMI edge detector (R170), and one dot of the scheduler with the
position it advances (R103 to R106). -/

namespace Sys2Proof.Machine

/-! ## The address at a dot: the reference schedule (R201 to R205) -/

/-- Lines the PPU fetches on: 0 to 239 and 261 (R202). -/
def renderingLine (l : Nat) : Bool := decide (l < Config.visibleLines) || l == Config.prerenderLine

/-- A pattern-table address: bit 12 selects the table; bits 11 to 0 are not modelled (R201). -/
def patternAddr (table1 : Bool) : PAddr := if table1 then 0x1000 else 0x0000

/-- A nametable address: paddr[13:12] = %10 (R202). -/
def nametableAddr : PAddr := 0x2000

/-- Where a dot falls within its slot of 8 dots; background and sprite slots start at dots 1, 9, ... (R202, R203). -/
def slotOffset (d : Nat) : Nat := (d - 1) % 8

/-- The A12 of a sprite pattern fetch in the slot of dot d (R203). -/
def spriteTable (s : State) (l d : Nat) : Bool :=
  if ctrlTall s.ppu.ctrl then spr16A12 s l ((d - 257) / 8) else ctrlSprite s.ppu.ctrl

/-- The address at dot d of a line with fetches (R202, R203, R204). -/
def scheduleAddr (s : State) (l d : Nat) : PAddr :=
  if d = 0 then 0x0000
  else if 337 ≤ d then nametableAddr
  else if slotOffset d < 4 then nametableAddr
  else if 257 ≤ d ∧ d ≤ 320 then patternAddr (spriteTable s l d)
  else patternAddr (ctrlBackground s.ppu.ctrl)

/-- A word held to a pattern-table-1 address, or to one with A12 clear: paddr[13:12] = %01, or bit 12 = 0 (R66). -/
def fetchWord (table1 : Bool) (w : BitVec 16) : BitVec 16 := if table1 then (w &&& 0xDFFF) ||| 0x1000 else w &&& 0xEFFF

/-- What a full PPU drives: its own word, held to the schedule's A12 and to the classes of R66 that are fetched (R201; log 10), on
14 or on 16 lines (R94; log 9). -/
def engineWord (s : State) (l d : Nat) : BitVec 16 :=
  let w := Config.ppuFetchWord s.ext.ppuSt l d
  fetchWord ((scheduleAddr s l d).getLsbD 12) (if s.ext.widePpu then w else w &&& 0x3FFF)

/-- The word on the PPU's address lines at dot d of line l: a full PPU's, the reference schedule's, or 0 where nothing is fetched
(R201, R205). -/
def ppuBusWord (s : State) (l d : Nat) : BitVec 16 :=
  if renderingEnabled s && renderingLine l then
    if s.ext.fullPpu then engineWord s l d else (scheduleAddr s l d).setWidth 16
  else 0x0000

/-- paddr[13:0] of a word (R94). -/
def truncateAddr (w : BitVec 16) : PAddr := w.extractLsb' 0 14

/-- A bit above 13 is set (R94). -/
def tooWide (w : BitVec 16) : Bool := decide (0x4000 ≤ w.toNat)

/-- `ppu_fetch_addr(l, d)`, truncated for the decoder (R201, R94). -/
def ppuFetchAddr (s : State) (l d : Nat) : PAddr := truncateAddr (ppuBusWord s l d)

/-! ## The edge detector (R206, R207) -/

/-- `rendering_active(l)` (R207). -/
def renderingActive (s : State) (l : Nat) : Bool :=
  renderingEnabled s && (decide (l < Config.visibleLines) || (l == Config.prerenderLine && s.params.prerenderTicks))

/-- Whether this dot is a tick: the result of `edge_step`, with lowMin = P_A12_LOW_MIN (R206). -/
def edgeFires (lowMin : Nat) (e : Edge) (a12 active : Bool) : Bool :=
  active && a12 && !e.prevA12 && decide (lowMin ≤ e.lowRun) && !e.firedLine

/-- What `edge_step` leaves (R206). -/
def edgeNext (lowMin : Nat) (e : Edge) (a12 active : Bool) : Edge :=
  { prevA12 := a12
    lowRun := if a12 then 0 else min (e.lowRun + 1) lowMin
    firedLine := e.firedLine || edgeFires lowMin e a12 active }

/-- `tick()` on the whole state: the Mapper alone changes (R128). -/
def tickState (s : State) : State := setMapper s (mapperTick s.mapper)

/-- The decoder sees the address of a dot of line l: `edge_step`, and `tick()` if it is true (R200, R206, R209). -/
def observe (s : State) (p : PAddr) (l : Nat) : State :=
  let t := setEdge s (edgeNext s.params.a12LowMin s.edge (p.getLsbD 12) (renderingActive s l))
  if edgeFires s.params.a12LowMin s.edge (p.getLsbD 12) (renderingActive s l) then tickState t else t

/-! ## The NMI edge detector (R170) -/

/-- The PPU's NMI output, P.vblank AND P.ctrl[7] (R170). -/
def nmiOut (s : State) : Bool := s.ppu.vblank && ctrlNmi s.ppu.ctrl

/-- `nmi_sample()` (R170). -/
def nmiSample (s : State) : State :=
  setArb s { nmiPrev := nmiOut s, nmiPending := s.arb.nmiPending || (nmiOut s && !s.arb.nmiPrev) }

/-! ## The position (R104, R105, R106) -/

/-- Whether the dot after this one is skipped: the last dot but one of line 261 on an odd frame with rendering on and P_ODD_FRAME_SKIP (R104). -/
def skipsDot (s : State) : Bool :=
  s.sched.line == Config.prerenderLine && s.sched.dot == Config.dotsPerLine - 2 && s.sched.oddFrame && renderingEnabled s
    && s.params.oddFrameSkip

/-- `advance(l, d)` (R104) with the parity it toggles at the wrap (R105). -/
def advance (s : State) : State :=
  if skipsDot s then setSched s { s.sched with line := 0, dot := 0, oddFrame := !s.sched.oddFrame }
  else if s.sched.dot = Config.dotsPerLine - 1 then
    if s.sched.line = Config.linesPerFrame - 1 then
      setSched s { s.sched with line := 0, dot := 0, oddFrame := !s.sched.oddFrame }
    else setSched s { s.sched with line := s.sched.line + 1, dot := 0 }
  else setSched s { s.sched with dot := s.sched.dot + 1 }

/-- The end of a frame: `T.frame_done <- 1` (R106). -/
def endFrame (s : State) : State := setSched s { s.sched with frameDone := true }

/-! ## One dot (R103): its sub-actions, in their order -/

/-- Dot 0 of a line clears the per-line gate (R208). -/
def clearGate (s : State) (d : Nat) : State :=
  if d = 0 then setEdge s { s.edge with firedLine := false } else s

/-- The vertical-blank flag is set at (241, 1) and cleared at (261, 1) (R223). -/
def vblankUpdate (s : State) (l d : Nat) : State :=
  if l = Config.vblankLine ∧ d = 1 then setVblank s true
  else if l = Config.prerenderLine ∧ d = 1 then setVblank s false
  else s

/-- `T.frame_done` is set at P_STEP_END_POS (R103, R106). -/
def frameEndUpdate (s : State) (l d : Nat) : State :=
  if l = s.params.stepEndLine ∧ d = s.params.stepEndDot then endFrame s else s

/-- The decoder's part of a dot: gate clear, address, edge and tick (R103). -/
def dotDecode (s : State) (l d : Nat) : State :=
  observe (clearGate s d) (ppuFetchAddr (clearGate s d) l d) l

/-- The sub-actions of `ppu_dot()`, all of them (R103). -/
def wholeDot (s : State) : State :=
  advance
    (frameEndUpdate
      (nmiSample (renderDot (vblankUpdate (dotDecode s s.sched.line s.sched.dot) s.sched.line s.sched.dot)
        s.sched.line s.sched.dot))
      s.sched.line s.sched.dot)

/-- The word on the PPU's address lines at the current position. -/
def currentWord (s : State) : BitVec 16 := ppuBusWord s s.sched.line s.sched.dot

/-- `ppu_dot()` (R103). A word that is too wide reaches the decoder truncated and raises its fault, and the dot ends there (R94,
R250; log 9). A halted instance performs no dot (R250, R251). -/
def ppuDot (s : State) : State :=
  if halted s then s
  else if tooWide (currentWord s) then raisePpuAddrWidth (dotDecode s s.sched.line s.sched.dot) (currentWord s)
  else wholeDot s

/-- The three dots that open a CPU cycle (R100, R102). -/
def threeDots (s : State) : State := ppuDot (ppuDot (ppuDot s))

end Sys2Proof.Machine
end

