-- ==== Sys2Proof/Machine/Cpu.lean ====
section
/-! DEFINITION. The CPU action and the arbiter (R160 to R164), every operation cycle by cycle (R165 to R186), the CPU cycle (R102)
and the frame loop (R101). -/

namespace Sys2Proof.Machine

/-! ## The instruction boundary (R161, R162) -/

/-- Whether the next CPU action is a boundary (R161). -/
def opIsNone : Op → Bool
  | .none => true
  | _ => false

/-- `arbitrate()`: a DMA stall, then an NMI, then an IRQ with `C.I` clear, then the next instruction (R162, R254). -/
def arbitrate (s : State) : State :=
  match s.cpu.dmaPending with
  | some page => setOp (setDma s none) (.dma page 1 (513 + s.sched.cpuCycles % 2) 0)
  | none =>
    if s.params.nmiPresent && s.arb.nmiPending then setOp (setArb s { s.arb with nmiPending := false }) (.nmiSeq 1 0)
    else if cpuIrq s && !flagI s.cpu.p then setOp s (.irqSeq 1 0)
    else setOp s .fetch

/-- The start of a CPU action: at a boundary, the arbiter's choice (R160). -/
def boundary (s : State) : State := if opIsNone s.cpu.op then arbitrate s else s

/-! ## The cycles of the ten instructions after the opcode fetch (R174 to R184)

Each takes the cycle number k from 2 on and the operand bytes read so far, and answers those bytes and the state. -/

/-- SEI's cycle 2 (R174). -/
def seiEffect (s : State) : State := setP (dummyRead s) (setI (dummyRead s).cpu.p)

/-- CLI's cycle 2 (R175). -/
def cliEffect (s : State) : State := setP (dummyRead s) (clearI (dummyRead s).cpu.p)

/-- PHP's cycle 3 (R176). -/
def phpEffect (s : State) : State := push s (pushedStatus s.cpu.p true)

/-- PLP's cycle 4 (R177). -/
def plpEffect (s : State) : State := setP (pull s).2 (pulledStatus (pull s).1)

/-- Cycle k of an instruction (R174 to R184). -/
def insnCycle (kind : OpKind) (k : Nat) (operands : List Byte) (s : State) : List Byte × State :=
  match kind with
  | .sei => (operands, seiEffect s)
  | .cli => (operands, cliEffect s)
  | .nop => (operands, dummyRead s)
  | .php => (operands, if k = 2 then dummyRead s else phpEffect s)
  | .plp => (operands, if k = 2 then dummyRead s else if k = 3 then dummyStackRead s else plpEffect s)
  | .rti =>
    if k = 2 then (operands, dummyRead s)
    else if k = 3 then (operands, dummyStackRead s)
    else
      let r := returnCycle k (operandByte operands 0) s
      ([r.1], r.2)
  | .brk =>
    if k = 2 then (operands, (fetchByte s).2)
    else
      let r := enterCycle Config.irqVector true k (operandByte operands 0) s
      ([r.1], r.2)
  | .ldaImm => ([(fetchByte s).1], loadImmediate (fetchByte s).2 (fetchByte s).1)
  | .staAbs =>
    if k = 2 then ([(fetchByte s).1], (fetchByte s).2)
    else if k = 3 then (operands ++ [(fetchByte s).1], (fetchByte s).2)
    else (operands, memWrite s (absoluteOperand operands) s.cpu.a)
  | .jmpAbs =>
    if k = 2 then ([(fetchByte s).1], (fetchByte s).2)
    else
      let r := memRead s s.cpu.pc
      (operands, setPc r.2 (joinBytes r.1 (operandByte operands 0)))

/-! ## The other operations -/

/-- An opcode outside R89 with no `cpu_exec` is refused, with its address C.PC - 1 (R190). -/
def refuseOpcode (s : State) (opcode : Byte) : State :=
  raiseFault s (.unmodelledOpcode (s.cpu.pc - 1) opcode)

/-- Cycle 1 of every instruction: fetch and decode the opcode (R180); an opcode outside R89 goes to `cpu_exec` (R186) or is
refused (R190). -/
def fetchCycle (s : State) : State :=
  let r := fetchByte s
  match opKind r.1 with
  | some kind => setOp r.2 (.insn r.1 [] 2 kind.cycles)
  | none => if r.2.ext.cpuExec then setOp r.2 (.external r.1 2) else refuseOpcode r.2 r.1

/-- The registers `cpu_exec` sees (R20). -/
def cpuRegs (s : State) : CpuRegs := { pc := s.cpu.pc, s := s.cpu.s, p := s.cpu.p, a := s.cpu.a }

/-- The one access `cpu_exec` makes in a cycle, if any; a cycle that reads nothing gets the byte 0 (R186). -/
def externalAccess (s : State) : BusRequest → Byte × State
  | .idle => (0, s)
  | .read a => memRead s a
  | .write a v => (0, memWrite s a v)

/-- Write back what `cpu_exec` leaves: the CPU registers (`C.I` as it was, log 7) and its own state (R186). -/
def writeBack (s : State) (r : CpuExecResult) : State :=
  setExt (setA (setP (setS (setPc s r.regs.pc) r.regs.s) (engineStatus s.cpu.p r.regs.p)) r.regs.a)
    { s.ext with cpuSt := r.next }

/-- Cycle k of an instruction that `cpu_exec` performs (R186). -/
def externalCycle (opcode : Byte) (k : Nat) (s : State) : State :=
  let a := externalAccess s (Config.cpuExecRequest s.ext.cpuSt opcode k (cpuRegs s))
  let r := Config.cpuExecResult s.ext.cpuSt opcode k (cpuRegs s) a.1
  setOp (writeBack a.2 r) (if r.last then .none else .external opcode (k + 1))

/-- Cycle k of an n-cycle DMA stall: n - 512 idle cycles, then 256 pairs of a read of {page, i} and a write to PPU register 4
(R172). The answer is the byte last read, and the state. -/
def dmaCycle (page : Byte) (k n : Nat) (b : Byte) (s : State) : Byte × State :=
  if k ≤ n - 512 then (b, s)
  else if (k - (n - 512) - 1) % 2 = 0 then
    memRead s (joinBytes page (BitVec.ofNat 8 ((k - (n - 512) - 1) / 2)))
  else (b, setOpenBus (ppuRegWrite s 4 b) b)

/-- "perform cycle k of C.op" and the completion rule (R160; past an operation's end, log 20). -/
def performCycle (s : State) : State :=
  match s.cpu.op with
  | .none => s
  | .fetch => fetchCycle s
  | .insn opcode operands k n =>
    match opKind opcode with
    | some kind =>
      let r := insnCycle kind k operands s
      setOp r.2 (if n ≤ k then .none else .insn opcode r.1 (k + 1) n)
    | none => setOp s .none
  | .external opcode k => externalCycle opcode k s
  | .irqSeq k lo =>
    let r := serviceCycle Config.irqVector k lo s
    setOp r.2 (if Config.irqSeqCycles ≤ k then .none else .irqSeq (k + 1) r.1)
  | .nmiSeq k lo =>
    let r := serviceCycle Config.nmiVector k lo s
    setOp r.2 (if Config.irqSeqCycles ≤ k then .none else .nmiSeq (k + 1) r.1)
  | .dma page k n b =>
    let r := dmaCycle page k n b s
    setOp r.2 (if n ≤ k then .none else .dma page (k + 1) n r.1)

/-- `cpu_action()` (R160). -/
def cpuAction (s : State) : State := performCycle (boundary s)

/-! ## The CPU cycle and the loops (R101, R102) -/

/-- `T.cpu_cycles <- T.cpu_cycles + 1` (R102). -/
def countCycle (s : State) : State := setSched s { s.sched with cpuCycles := s.sched.cpuCycles + 1 }

/-- The rest of a CPU cycle, unless what came before it raised a fault (R250). -/
def unlessHalted (f : State → State) (s : State) : State := if halted s then s else f s

/-- `cpu_cycle()`: three dots, the CPU action, and the count; a fault or refusal ends it where it is raised (R102, R250; log 8). -/
def cpuCycle (s : State) : State := unlessHalted (fun t => unlessHalted countCycle (cpuAction t)) (threeDots s)

/-- Three dots, one CPU action given as a function, and the count; `C.op` is then the next cycle's (R102, R160). -/
def timed (next : Op) (act : State → State) (s : State) : State :=
  unlessHalted (fun t => setOp (countCycle (act t)) next) (threeDots s)

/-- `run_frame()`'s loop: CPU cycles until the frame is done or a fault is raised, at most this many (R101). -/
def frameLoop : Nat → State → Option State
  | 0, _ => none
  | k + 1, s =>
    if (cpuCycle s).sched.frameDone || halted (cpuCycle s) then some (cpuCycle s) else frameLoop k (cpuCycle s)

/-- The most CPU cycles a frame can take from any legal position: 89342 dots, three a cycle (R110). -/
def frameCycles : Nat := 29781

/-- CPU cycles, at least one, as long as the state they leave says to go on, at most this many. -/
def runWhile (goOn : State → Bool) : Nat → State → State
  | 0, s => s
  | k + 1, s => if goOn (cpuCycle s) then runWhile goOn k (cpuCycle s) else cpuCycle s

/-- An operation is in progress and nothing has stopped it. -/
def inOperation (s : State) : Bool := !opIsNone s.cpu.op && !halted s

/-- The same, inside a frame that is not done (R101). -/
def inFrameOperation (s : State) : Bool := inOperation s && !s.sched.frameDone

/-- The longest operation of the spec: a DMA stall that starts on an odd cycle (R172). -/
def longestOperation : Nat := 514

/-- One operation of a STEP's frame: up to the next boundary, the end of the frame, or a fault (R101, R161; log 18). -/
def frameOperation (s : State) : State := runWhile inFrameOperation longestOperation s

/-! ## Whole sequences of timed cycles, shared by the meanings -/

/-- Cycle 1 of an instruction whose opcode and length are known (R180). -/
def fetchOpcode (opcode : Byte) (n : Nat) (s : State) : State :=
  timed (.insn opcode [] 2 n) (fun t => (fetchByte t).2) s

/-- Taking an interrupt: the five cycles 3 to 7 of R165, R168 and R179, with their dots. `op` is the operation before a cycle,
with the vector's low byte once read. -/
def enterInterrupt (vector : Addr) (brk : Bool) (op : Nat → Byte → Op) (s : State) : State :=
  let s5 := timed (op 6 0) (fun t => (enterCycle vector brk 5 0 t).2)
    (timed (op 5 0) (fun t => (enterCycle vector brk 4 0 t).2)
      (timed (op 4 0) (fun t => (enterCycle vector brk 3 0 t).2) s))
  let lo := (enterCycle vector brk 6 0 (threeDots s5)).1
  timed .none (fun t => (enterCycle vector brk 7 lo t).2)
    (timed (op 7 lo) (fun t => (enterCycle vector brk 6 0 t).2) s5)

/-- A whole service sequence: two dummy reads and the entry (R165, R168). No request bit is read or
cleared, and an operation in progress is dropped (log 14). -/
def serviceInterrupt (vector : Addr) (op : Nat → Byte → Op) (s : State) : State :=
  enterInterrupt vector false op (timed (op 3 0) dummyRead (timed (op 2 0) dummyRead s))

/-- Returning from an interrupt: the three cycles 4 to 6 of R178, with their dots. -/
def returnFromInterrupt (s : State) : State :=
  let s4 := timed (.insn 0x40 [0] 5 6) (fun t => (returnCycle 4 0 t).2) s
  let lo := (returnCycle 5 0 (threeDots s4)).1
  timed .none (fun t => (returnCycle 6 lo t).2) (timed (.insn 0x40 [lo] 6 6) (fun t => (returnCycle 5 0 t).2) s4)

end Sys2Proof.Machine
end

