-- ==== Sys2Proof/Machine/BusRows.lean ====
section
/-! DEFINITION. The meanings of the F-BUS rows: one CPU bus transaction each, with the open-bus latch and the row's target (R80,
R88, R141 to R149). A transaction takes no scheduler time of its own (R61, R235). -/

namespace Sys2Proof.Machine

/-- The end of every meaning that gives a next state. -/
abbrev Result := Host.Outcome State Fault Refusal

/-- A CPU write whose target is known: the latch, then the target (R147). It has no lifecycle gate of its own, in any condition; step
executes a row only inside a STEP (log 13). -/
def busWriteTo (target : State → State) (s : State) (v : Byte) : Result := .next (target (setOpenBus s v))

/-- A CPU read whose target is known: the value read is left in the latch (R146). No gate of its own, as for a write (log 13). -/
def busReadFrom (target : State → Option Byte × State) (s : State) : Result := .next (finishRead (target s)).2

/-- IRQ_LATCH_W: `M.latch <- data` (R121). -/
def execIrqLatchW (_a : Addr) (v : Byte) (s : State) : Result :=
  busWriteTo (fun t => setMapper t (latchWrite t.mapper v)) s v

/-- IRQ_RELOAD_W: `M.reload_pending <- 1` (R122). -/
def execIrqReloadW (_a : Addr) (v : Byte) (s : State) : Result :=
  busWriteTo (fun t => setMapper t (reloadWrite t.mapper)) s v

/-- IRQ_DISABLE_ACK_W: `M.enabled <- 0`, `M.irq_line <- 0` (R123). -/
def execIrqDisableAckW (_a : Addr) (v : Byte) (s : State) : Result :=
  busWriteTo (fun t => setMapper t (disableAckWrite t.mapper)) s v

/-- IRQ_ENABLE_W: `M.enabled <- 1` (R124). -/
def execIrqEnableW (_a : Addr) (v : Byte) (s : State) : Result :=
  busWriteTo (fun t => setMapper t (enableWrite t.mapper)) s v

/-- BANK_W: `bank_write(addr, data)` (R86, R145). -/
def execBankW (a : Addr) (v : Byte) (s : State) : Result := busWriteTo (fun t => bankWrite t a v) s v

/-- CART_PRG_R: `prg_read(addr)`, IRQ register addresses included (R87, R144). -/
def execCartPrgR (a : Addr) (s : State) : Result := busReadFrom (fun t => (some (prgRead t a), t)) s

/-- RAM_R (R141). -/
def execRamR (a : Addr) (s : State) : Result := busReadFrom (fun t => (some (ramLoad t a), t)) s

/-- RAM_W (R141). -/
def execRamW (a : Addr) (v : Byte) (s : State) : Result := busWriteTo (fun t => ramStore t a v) s v

/-- PPU_REG_R (R142, R223). -/
def execPpuRegR (a : Addr) (s : State) : Result := busReadFrom (fun t => ppuTargetRead t a) s

/-- PPU_REG_W (R142, R221, R222). -/
def execPpuRegW (a : Addr) (v : Byte) (s : State) : Result := busWriteTo (fun t => ppuTargetWrite t a v) s v

/-- APU_IO_R (R143). -/
def execApuIoR (a : Addr) (s : State) : Result := busReadFrom (fun t => apuIoRead t a) s

/-- APU_IO_W; $4014 requests a DMA stall (R143, R172). -/
def execApuIoW (a : Addr) (v : Byte) (s : State) : Result := busWriteTo (fun t => apuTargetWrite t a v) s v

/-- CART_LOW_R (R144). -/
def execCartLowR (a : Addr) (s : State) : Result := busReadFrom (fun t => cartLowRead t a) s

/-- CART_LOW_W (R145). -/
def execCartLowW (a : Addr) (v : Byte) (s : State) : Result := busWriteTo (fun t => cartLowWrite t a v) s v

end Sys2Proof.Machine
end

