-- ==== Sys2Proof/Machine/Events.lean ====
section
/-! DEFINITION. The meanings of the internal events (R91; log 13). -/

namespace Sys2Proof.Machine

/-- CPU_CYCLE: three dots, then one CPU action (R102). -/
def execCpuCycle (s : State) : Result := .next (cpuCycle s)

/-- PPU_DOT (R103). -/
def execPpuDot (s : State) : Result := .next (ppuDot s)

/-- TICK: notify_scanline_tick(), with no scheduler time (R128, R93). -/
def execTick (s : State) : Result := .next (tickState s)

/-- BOUNDARY: where `C.op = none`, the arbiter chooses the next operation; inside an operation there is no boundary (R161, R162). -/
def execBoundary (s : State) : Result := .next (boundary s)

/-- IRQ_SERVICE: the 7-cycle IRQ service sequence, with the dots of its cycles (R165). -/
def execIrqService (s : State) : Result := .next (serviceInterrupt Config.irqVector .irqSeq s)

/-- NMI_SERVICE: the same with the NMI vector (R168). -/
def execNmiService (s : State) : Result := .next (serviceInterrupt Config.nmiVector .nmiSeq s)

/-- NMI_EDGE: `nmi_sample()` (R170). -/
def execNmiEdge (s : State) : Result := .next (nmiSample s)

/-- FRAME_END: `T.frame_done <- 1` (R106). -/
def execFrameEnd (s : State) : Result := .next (endFrame s)

end Sys2Proof.Machine
end

