-- ==== Sys2Proof/Machine/Lifecycle.lean ====
section
/-! DEFINITION. Construction and the host lifecycle (R230, R237, R239, R270, R271), which stimuli are a STEP's own, and how an
instruction is placed where the machine fetches it next. -/

namespace Sys2Proof.Machine

/-! ## The lifecycle (R230, R237) -/

/-- The four host-visible conditions (R230). -/
inductive Condition where
  | constructed
  | running
  | faulted
  | closed
  deriving DecidableEq, Repr

/-- The condition of an instance (R230). -/
def condition (s : State) : Condition :=
  if s.host.closed then .closed
  else if s.host.resetDone = false then .constructed
  else if s.host.fault.isSome then .faulted
  else .running

/-- The outcome of STEP or BUS_WRITE where it does not act: closed, not reset, or fault(H.fault) for every stored reason (R232,
R235, R237, R251; log 17). -/
def commandGate (c : CommandName) (s : State) : Option Reply :=
  if s.host.closed then some (.fault (.closed c))
  else if s.host.resetDone = false then some (.fault (.notReset c))
  else
    match s.host.fault with
    | some r => some (.fault r)
    | none => none

/-! ## RESET and construction -/

/-- Every collaborator at its power-on state; which ones there are is a parameter (R41, R273). -/
def resetExternal (x : External) : External :=
  { x with cpuSt := 0, ppuSt := 0, apuSt := 0, cartSt := 0, bankSt := 0 }

/-- C.PC <- the reset vector, read with `prg_read` directly (R271). -/
def loadResetVector (s : State) : State :=
  setPc s (joinBytes (prgRead s (Config.resetVector + 1)) (prgRead s Config.resetVector))

/-- The fields whose reset values are parameters: the position with its parity, and `C.S` (R270, R272, D10, D26). -/
def loadResetParameters (s : State) : State :=
  setS (setSched s { s.sched with line := s.params.resetLine, dot := s.params.resetDot, oddFrame := s.params.resetOddFrame })
    s.params.resetS

/-- Every field at its reset value, the reset vector last; `H.closed`, the parameters and the waiting stimuli stay (R270, R271,
R41). -/
def resetFields (s : State) : State :=
  loadResetVector (loadResetParameters
    { State.reset with
      host := { State.reset.host with closed := s.host.closed, inbox := s.host.inbox, reply := s.host.reply }
      ext := resetExternal s.ext
      prg := s.prg
      params := s.params })

/-- The mapper a cartridge has: the MMC3-style variant of R84, or another (R239, I2). -/
inductive MapperVariant where
  | mmc3
  | other (id : Nat)
  deriving DecidableEq, Repr

/-- The cartridge an instance is constructed with (R239). -/
structure Cartridge where
  variant : MapperVariant
  /-- The image behind `prg_read`, if there is one. -/
  prg : Option Memory
  deriving DecidableEq, Repr

/-- Configuration errors (R239). -/
inductive ConfigError where
  /-- A parameter out of its domain (D45; the domains: log 11). -/
  | parameterOutOfDomain (given : Parameters)
  | unsupportedMapper (id : Nat)
  | missingPrg
  /-- Malformed cartridge data: an image that is not bytes at $8000-$FFFF in canonical form (log 15). -/
  | malformedPrg
  deriving DecidableEq, Repr

/-- Construction is power-on with `H.reset_done = 0`, or fails before any instance exists (R230, R239). Of several errors the
first in the order parameter, mapper, image is reported (log 15). -/
def construct (p : Parameters) (c : Cartridge) (x : External) : Except ConfigError State :=
  if p.valid then
    match c.variant, c.prg with
    | .other id, _ => .error (.unsupportedMapper id)
    | .mmc3, none => .error .missingPrg
    | .mmc3, some image =>
      if Memory.wf 0x8000 0x10000 image then
        let s := resetFields { State.reset with ext := x, prg := image, params := p.toSettings }
        .ok (setHost s { s.host with resetDone := false })
      else .error .malformedPrg
  else .error (.parameterOutOfDomain p)

/-! ## Stimuli (R93; log 2) -/

/-- The stimuli that are events of a STEP's own time: an event of R91 but for the harness's TICK, a bus transaction, a PPU address.
The others, host commands and TICK, come from the host, between STEPs (R67, R93, R107, R263). -/
def internalStimulus : Stimulus → Bool
  | .bus _ _ => true
  | .ppua _ => true
  | .event .cpuCycle => true
  | .event .ppuDot => true
  | .event .tick => false
  | .event .boundary => true
  | .event .irqService => true
  | .event .nmiService => true
  | .event .nmiEdge => true
  | .event .frameEnd => true
  | .host _ => false

/-! ## Placing an instruction where the next step fetches it -/

/-- RAM or PRG: an address where a byte can be placed for the CPU to fetch. -/
def placeable (a : Addr) : Bool := decide (a.toNat ≤ 0x1FFF) || decide (0x8000 ≤ a.toNat)

/-- The byte the CPU fetches at a placeable address: RAM, or the PRG image with its power-on mapping. -/
def placeByte (s : State) (a : Addr) (v : Byte) : State :=
  if a.toNat ≤ 0x1FFF then ramStore s a v
  else setExt { s with prg := sparseWrite s.prg a.toNat v } { s.ext with bankSt := 0 }

/-- Bytes at an address and the ones after it. -/
def placeBytes : State → Addr → List Byte → State
  | s, _, [] => s
  | s, a, v :: rest => placeBytes (placeByte s a v) (a + 1) rest

/-- The operation is an opcode fetch still to be done. -/
def opIsFetch : Op → Bool
  | .fetch => true
  | _ => false

/-- Whether one of the next 22 dots is the last of the frame, or is skipped: the longest instruction of R89 takes 21. -/
def endsSoon (s : State) : Bool :=
  decide ((s.params.stepEndLine * Config.dotsPerLine + s.params.stepEndDot + Config.linesPerFrame * Config.dotsPerLine
    - (s.sched.line * Config.dotsPerLine + s.sched.dot)) % (Config.linesPerFrame * Config.dotsPerLine) ≤ 22)

/-- Move a position from which the frame ends soon to 20 lines after its end: (261, 0) with P_STEP_END_POS at this hardware's value. -/
def leaveFrameEnd (s : State) : State :=
  if endsSoon s then setSched s { s.sched with line := (s.params.stepEndLine + 20) % Config.linesPerFrame, dot := 0 } else s

/-- The same state inside a STEP, in Running, with its frame not done for the longest instruction of R89. -/
def enterStep (s : State) : State :=
  let t := leaveFrameEnd s
  setHost (setSched t { t.sched with frameDone := false })
    { t.host with resetDone := true, closed := false, fault := none, inStep := true }

/-- Whether the next step fetches an opcode: nothing waits, and the arbiter will choose an instruction. -/
def fetchesNext (s : State) : Bool :=
  s.host.inbox.isEmpty && opIsFetch (boundary (threeDots s)).cpu.op

/-- Remove whatever would come before an opcode fetch; where other devices hold the IRQ line, set `C.I`. -/
def quiet (s : State) : State :=
  { s with
    mapper := { s.mapper with enabled := false, irqLine := false }
    arb := { s.arb with nmiPending := false }
    cpu := { s.cpu with op := .none, dmaPending := none, p := if s.params.extIrq then setI s.cpu.p else s.cpu.p }
    ppu := { s.ppu with ctrl := s.ppu.ctrl &&& 0x7F }
    host := { s.host with inbox := [] } }

/-- Move C.PC to $0000 if the bytes it points at cannot be placed. -/
def placeablePc (s : State) : State :=
  if placeable s.cpu.pc && placeable (s.cpu.pc + 1) && placeable (s.cpu.pc + 2) then s else setPc s 0x0000

/-- Bytes of an instruction where the next step fetches it, inside a STEP. -/
def placeInstruction (s : State) (bytes : List Byte) : State :=
  let u := enterStep s
  let t := placeablePc (if fetchesNext u then u else quiet u)
  placeBytes t t.cpu.pc bytes

/-- A stimulus first in the queue, inside a STEP if it is a STEP's own. -/
def placeStimulus (s : State) (x : Stimulus) : State :=
  let t := if internalStimulus x then enterStep s else s
  setHost t { t.host with inbox := x :: t.host.inbox }

/-- A code where the next step takes it. -/
def placeCode (s : State) : Code → State
  | .stimulus x => placeStimulus s x
  | .op bytes => placeInstruction s bytes

end Sys2Proof.Machine
end

