-- ==== Sys2Proof/Machine/HostRows.lean ====
section
/-! DEFINITION. The meanings of the host commands (R230 to R237). What a command returns to the host is left in `host.reply`; a
command that does not act changes nothing else (log 1). -/

namespace Sys2Proof.Machine

/-- RESET (R231). -/
def execHostReset (s : State) : Result :=
  if s.host.closed then .next (answer s (.fault (.closed .reset)))
  else .next (answer (resetFields s) .done)

/-- The start of a STEP: the joypad byte is the input's low 8 bits, and the frame is not done (R101, R232, R233). -/
def startStep (input : Nat) (s : State) : State :=
  setHost (setSched s { s.sched with joypad := BitVec.ofNat 8 input, frameDone := false }) { s.host with inStep := true }

/-- The end of a STEP: the snapshot is copied and returned, unless a fault or refusal ended the frame (R232, R250). -/
def finishStep (s : State) : State :=
  let t := setHost s { s.host with inStep := false }
  if halted t then t else answer (setHost t { t.host with frame := t.host.fb }) (.frame t.host.fb)

/-- After a part of a STEP: the STEP ends where its frame is done or a fault was raised (R101, R250). -/
def settle (s : State) : State :=
  if s.host.inStep && (s.sched.frameDone || halted s) then finishStep s else s

/-- STEP: one frame (R232). -/
def execHostStep (input : Nat) (s : State) : Result :=
  match commandGate .step s with
  | some r => .next (answer s r)
  | none =>
    match frameLoop frameCycles (startStep input s) with
    | some t => .next (finishStep t)
    | none => .fault .frameNeverEnds

/-- BUS_WRITE: a CPU write between steps, in no time; an argument out of range is a recorded fault (R235). -/
def execHostBusWrite (addr value : Nat) (s : State) : Result :=
  match commandGate .busWrite s with
  | some r => .next (answer s r)
  | none =>
    if 0xFFFF < addr then .next (raiseFault s (.addrOutOfRange addr))
    else if 0xFF < value then .next (raiseFault s (.valueOutOfRange value))
    else .next (answer (memWrite s (BitVec.ofNat 16 addr) (BitVec.ofNat 8 value)) .done)

/-- READ_FRAME (R234). -/
def execHostReadFrame (s : State) : Result :=
  if s.host.closed then .next (answer s (.fault (.closed .readFrame)))
  else .next (answer s (.frame s.host.frame))

/-- CLOSE, in every condition (R236). -/
def execHostClose (s : State) : Result :=
  .next (answer (setHost s { s.host with closed := true }) .done)

end Sys2Proof.Machine
end

