-- ==== Sys2Proof/Machine/Opcodes.lean ====
section
/-! DEFINITION. The meanings of the F-OP rows: the instruction as the operation that starts at this boundary, cycle by cycle with
the dots of each cycle, up to the next boundary (R160, R174 to R190; log 6). -/

namespace Sys2Proof.Machine

/-- BRK: the padding byte is read and skipped, then the entry with B = 1 at the IRQ vector (R179). -/
def execBrk (_pad : Byte) (s : State) : Result :=
  .next (enterInterrupt Config.irqVector true (fun k lo => .insn 0x00 [lo] k 7)
    (timed (.insn 0x00 [] 3 7) (fun t => (fetchByte t).2) (fetchOpcode 0x00 7 s)))

/-- PHP (R176). -/
def execPhp (s : State) : Result :=
  .next (timed .none phpEffect (timed (.insn 0x08 [] 3 3) dummyRead (fetchOpcode 0x08 3 s)))

/-- PLP (R177). -/
def execPlp (s : State) : Result :=
  .next (timed .none plpEffect
    (timed (.insn 0x28 [] 4 4) dummyStackRead (timed (.insn 0x28 [] 3 4) dummyRead (fetchOpcode 0x28 4 s))))

/-- RTI (R178). -/
def execRti (s : State) : Result :=
  .next (returnFromInterrupt
    (timed (.insn 0x40 [] 4 6) dummyStackRead (timed (.insn 0x40 [] 3 6) dummyRead (fetchOpcode 0x40 6 s))))

/-- CLI (R175). -/
def execCli (s : State) : Result := .next (timed .none cliEffect (fetchOpcode 0x58 2 s))

/-- SEI (R174). -/
def execSei (s : State) : Result := .next (timed .none seiEffect (fetchOpcode 0x78 2 s))

/-- LDA #imm (R181). -/
def execLdaImm (imm : Byte) (s : State) : Result :=
  .next (timed .none (fun t => loadImmediate (fetchByte t).2 imm) (fetchOpcode 0xA9 2 s))

/-- STA abs: two operand fetches, then the write in cycle 4 (R182). -/
def execStaAbs (addr : Addr) (s : State) : Result :=
  .next (timed .none (fun t => memWrite t addr t.cpu.a)
    (timed (.insn 0x8D [lowByte addr, highByte addr] 4 4) (fun t => (fetchByte t).2)
      (timed (.insn 0x8D [lowByte addr] 3 4) (fun t => (fetchByte t).2) (fetchOpcode 0x8D 4 s))))

/-- NOP (R183). -/
def execNop (s : State) : Result := .next (timed .none dummyRead (fetchOpcode 0xEA 2 s))

/-- JMP abs: two operand reads, then `C.PC <- {hi, lo}` (R184). -/
def execJmpAbs (addr : Addr) (s : State) : Result :=
  .next (timed .none (fun t => setPc (memRead t t.cpu.pc).2 addr)
    (timed (.insn 0x4C [lowByte addr] 3 3) (fun t => (fetchByte t).2) (fetchOpcode 0x4C 3 s)))

/-- Cycle 1 of an opcode outside R89, its dots done: it goes to `cpu_exec`, which performs the rest of it (R186), or is refused
there, and the refusal stays in `H.fault` until RESET (R190). -/
def handOver (op : Byte) (t : State) : State :=
  if t.ext.cpuExec then
    runWhile inOperation (longestOperation - 1) (countCycle (setOp (fetchByte t).2 (.external op 2)))
  else refuseOpcode (setOp (fetchByte t).2 .fetch) op

/-- UNMODELLED_OPCODE (R186, R190). -/
def execUnmodelledOpcode (op : Byte) (s : State) : Result := .next (unlessHalted (handOver op) (threeDots s))

end Sys2Proof.Machine
end

