-- ==== Sys2Proof/Machine/PpuaRows.lean ====
section
/-! DEFINITION. The meanings of the F-PPUA rows: the decoder sees the address in a dot of the current line, `edge_step` runs on its
bit 12, and a true result ticks the mapper (R66, R81, R150, R200, R206, R209; log 12). -/

namespace Sys2Proof.Machine

/-- The decoder's answer to one address, at the current position (R200), with no lifecycle gate of its own (log 12). -/
def seenAddress (p : PAddr) (s : State) : State := observe s p s.sched.line

/-- PPUA_PATTERN0: $0000-$0FFF, A12 = 0 (R66). -/
def execPpuaPattern0 (p : PAddr) (s : State) : Result := .next (seenAddress p s)

/-- PPUA_PATTERN1: $1000-$1FFF, A12 = 1 (R66). -/
def execPpuaPattern1 (p : PAddr) (s : State) : Result := .next (seenAddress p s)

/-- PPUA_NAMETABLE: $2000-$2FFF, A12 = 0 (R66). -/
def execPpuaNametable (p : PAddr) (s : State) : Result := .next (seenAddress p s)

/-- PPUA_PALETTE: $3F00-$3FFF, A12 = 1 (R66). -/
def execPpuaPalette (p : PAddr) (s : State) : Result := .next (seenAddress p s)

/-- PPUA_NT_MIRROR: $3000-$3EFF, A12 = 1 (R66). -/
def execPpuaNtMirror (p : PAddr) (s : State) : Result := .next (seenAddress p s)

end Sys2Proof.Machine
end

