-- ==== Sys2Proof/Machine/Dispatch.lean ====
section
/-! DEFINITION. The dispatch: one arm per command, one meaning per arm. -/

namespace Sys2Proof.Machine

def exec (i : Instr) (s : State) : Host.Outcome State Fault Refusal :=
  match i with
  | .irqLatchW a v => Sys2Proof.Machine.execIrqLatchW a v s
  | .irqReloadW a v => Sys2Proof.Machine.execIrqReloadW a v s
  | .irqDisableAckW a v => Sys2Proof.Machine.execIrqDisableAckW a v s
  | .irqEnableW a v => Sys2Proof.Machine.execIrqEnableW a v s
  | .bankW a v => Sys2Proof.Machine.execBankW a v s
  | .cartPrgR a => Sys2Proof.Machine.execCartPrgR a s
  | .ramR a => Sys2Proof.Machine.execRamR a s
  | .ramW a v => Sys2Proof.Machine.execRamW a v s
  | .ppuRegR a => Sys2Proof.Machine.execPpuRegR a s
  | .ppuRegW a v => Sys2Proof.Machine.execPpuRegW a v s
  | .apuIoR a => Sys2Proof.Machine.execApuIoR a s
  | .apuIoW a v => Sys2Proof.Machine.execApuIoW a v s
  | .cartLowR a => Sys2Proof.Machine.execCartLowR a s
  | .cartLowW a v => Sys2Proof.Machine.execCartLowW a v s
  | .ppuaPattern0 p => Sys2Proof.Machine.execPpuaPattern0 p s
  | .ppuaPattern1 p => Sys2Proof.Machine.execPpuaPattern1 p s
  | .ppuaNametable p => Sys2Proof.Machine.execPpuaNametable p s
  | .ppuaPalette p => Sys2Proof.Machine.execPpuaPalette p s
  | .ppuaNtMirror p => Sys2Proof.Machine.execPpuaNtMirror p s
  | .cpuCycle => Sys2Proof.Machine.execCpuCycle s
  | .ppuDot => Sys2Proof.Machine.execPpuDot s
  | .tick => Sys2Proof.Machine.execTick s
  | .boundary => Sys2Proof.Machine.execBoundary s
  | .irqService => Sys2Proof.Machine.execIrqService s
  | .nmiService => Sys2Proof.Machine.execNmiService s
  | .nmiEdge => Sys2Proof.Machine.execNmiEdge s
  | .frameEnd => Sys2Proof.Machine.execFrameEnd s
  | .hostReset => Sys2Proof.Machine.execHostReset s
  | .hostStep input => Sys2Proof.Machine.execHostStep input s
  | .hostBusWrite addr value => Sys2Proof.Machine.execHostBusWrite addr value s
  | .hostReadFrame => Sys2Proof.Machine.execHostReadFrame s
  | .hostClose => Sys2Proof.Machine.execHostClose s
  | .brk pad => Sys2Proof.Machine.execBrk pad s
  | .php => Sys2Proof.Machine.execPhp s
  | .plp => Sys2Proof.Machine.execPlp s
  | .rti => Sys2Proof.Machine.execRti s
  | .cli => Sys2Proof.Machine.execCli s
  | .sei => Sys2Proof.Machine.execSei s
  | .ldaImm imm => Sys2Proof.Machine.execLdaImm imm s
  | .staAbs addr => Sys2Proof.Machine.execStaAbs addr s
  | .nop => Sys2Proof.Machine.execNop s
  | .jmpAbs addr => Sys2Proof.Machine.execJmpAbs addr s
  | .unmodelledOpcode op => Sys2Proof.Machine.execUnmodelledOpcode op s

end Sys2Proof.Machine
end

