-- ==== Sys2Proof/Machine/Step.lean ====
section
/-! DEFINITION. One step (log 2): inside a STEP, the next stimulus of the STEP's own or the CPU's next operation; outside, the next host
command or TICK, and nothing where none waits. -/

namespace Sys2Proof.Machine

/-- A stimulus taken from the queue: the command it decodes to is executed; a PPU address that is too wide reaches the decoder truncated
and raises its fault (R94; log 9). It has no lifecycle gate: step takes a stimulus of a STEP's own only inside a STEP (logs 2, 12, 13). -/
def takeStimulus (x : Stimulus) (s : State) : Host.Outcome State Fault Refusal :=
  match decodeStimulus x with
  | .ok i => exec i s
  | .error (.ppuAddrWidth w) => .next (raisePpuAddrWidth (seenAddress (truncateAddr w) s) w)
  | .error .truncated => .refused .noRow
  | .error .noRow => .refused .noRow

/-- A next state of a part of a STEP, settled (R101, R250). -/
def settled : Host.Outcome State Fault Refusal → Host.Outcome State Fault Refusal
  | .next t => .next (settle t)
  | .fault f => .fault f
  | .refused r => .refused r

/-- Inside a STEP: a stimulus of the STEP's own, or else the frame's next operation, the host's commands waiting (R67, R107). -/
def stepInside (s : State) : Host.Outcome State Fault Refusal :=
  match s.host.inbox with
  | x :: rest =>
    if internalStimulus x then settled (takeStimulus x (setHost s { s.host with inbox := rest }))
    else .next (settle (frameOperation s))
  | [] => .next (settle (frameOperation s))

/-- A host stimulus outside a STEP: STEP begins where its gate lets it, every other command is executed whole (R232, R263). -/
def takeOutside (x : Stimulus) (s : State) : Host.Outcome State Fault Refusal :=
  match x with
  | .host (.step input) => if (commandGate .step s).isNone then .next (startStep input s) else takeStimulus x s
  | .host .reset => takeStimulus x s
  | .host (.busWrite _ _) => takeStimulus x s
  | .host .readFrame => takeStimulus x s
  | .host .close => takeStimulus x s
  | .event _ => takeStimulus x s
  | .bus _ _ => takeStimulus x s
  | .ppua _ => takeStimulus x s

/-- Outside a STEP: a host command or TICK; a stimulus of a STEP's own has no STEP to act in; with nothing waiting, nothing happens
(R263). -/
def stepOutside (s : State) : Host.Outcome State Fault Refusal :=
  match s.host.inbox with
  | x :: rest =>
    let t := setHost s { s.host with inbox := rest }
    if internalStimulus x then .next t else takeOutside x t
  | [] => .next s

/-- One step of the machine. -/
def step (s : State) : Host.Outcome State Fault Refusal := if s.host.inStep then stepInside s else stepOutside s

/-- The state with the instruction of a table word where step takes its next one. -/
def State.withFetchWord (s : State) (nbits w : Nat) : State := placeCode s (tableCode nbits w)

end Sys2Proof.Machine
end

