-- ==== Sys2Proof/Safety.lean ====
section
/-! DEFINITION. The terms the claims use: the invariant of a legal state, the dots of a stretch of time, the frames, and the bytes
the CPU would fetch. -/

namespace Sys2Proof.Machine

/-! ## Legal states -/

/-- A position of the frame (R29, R104). -/
def legalPosition (s : State) : Bool :=
  decide (s.sched.line < Config.linesPerFrame) && decide (s.sched.dot < Config.dotsPerLine)

/-- Bits 5 and 4 of `C.P` are not stored (R35). -/
def statusStored (p : Byte) : Bool := p &&& 0x30 == 0x00

/-- The cycle number lies in the operation, and an instruction in progress is one of the ten with its own length (R37, R89). -/
def opLegal : Op → Bool
  | .none => true
  | .fetch => true
  | .insn opcode _ k n =>
    match opKind opcode with
    | some kind => decide (2 ≤ k ∧ k ≤ n) && n == kind.cycles
    | none => false
  | .external _ k => decide (2 ≤ k)
  | .irqSeq k _ => decide (1 ≤ k ∧ k ≤ Config.irqSeqCycles)
  | .nmiSeq k _ => decide (1 ≤ k ∧ k ≤ Config.irqSeqCycles)
  | .dma _ k n _ => decide (1 ≤ k ∧ k ≤ n) && (n == 513 || n == 514)

/-- RAM, PRG and the two frame buffers are in canonical form over their address ranges (R38, R40, R41). -/
def memoriesLegal (s : State) : Bool :=
  Memory.wf 0 2048 s.ram && Memory.wf 0x8000 0x10000 s.prg && FrameBuf.wf s.host.fb && FrameBuf.wf s.host.frame

/-- A STEP in progress is a Running instance's, and its frame is not done (R101, R230; log 2). -/
def stepLegal (s : State) : Bool :=
  !s.host.inStep || (s.host.resetDone && !s.host.closed && !halted s && !s.sched.frameDone)

/-- A legal state: the position, the saturating low-run counter (R4, R27), the status byte, the operation, the memories, the STEP in
progress, the parameters in their domains (R239). -/
def legalState (s : State) : Bool :=
  legalPosition s && decide (s.edge.lowRun ≤ s.params.a12LowMin) && statusStored s.cpu.p && opLegal s.cpu.op && memoriesLegal s
    && stepLegal s && s.params.valid

/-- No fault stands, and none can come from the PPU's address lines: dots and cycles go on (R250, R94). -/
def unstopped (s : State) : Bool := !halted s && !(s.ext.fullPpu && s.ext.widePpu)

/-! ## Stretches of time -/

/-- n dots (R100). -/
def dots : Nat → State → State
  | 0, s => s
  | n + 1, s => dots n (ppuDot s)

/-- n ticks of the mapper (R128). -/
def ticks : Nat → Mapper → Mapper
  | 0, m => m
  | n + 1, m => ticks n (mapperTick m)

/-- n CPU cycles (R102). -/
def cycles : Nat → State → State
  | 0, s => s
  | n + 1, s => cycles n (cpuCycle s)

/-- n CPU cycles of scheduler time passed: 3n dots, and n on the count (R100, R102). -/
def tookCycles (n : Nat) (s t : State) : Prop :=
  t.sched = { (dots (3 * n) s).sched with cpuCycles := s.sched.cpuCycles + n }

/-- n steps of the machine, where each gives a next state. -/
def steps : Nat → State → Option State
  | 0, s => some s
  | n + 1, s =>
    match step s with
    | .next t => steps n t
    | .fault _ => none
    | .refused _ => none

/-- The commands that scheduler time passes in, but for STEP. -/
def takesTime : Instr → Bool
  | .cpuCycle => true
  | .ppuDot => true
  | .irqService => true
  | .nmiService => true
  | .brk _ => true
  | .php => true
  | .plp => true
  | .rti => true
  | .cli => true
  | .sei => true
  | .ldaImm _ => true
  | .staAbs _ => true
  | .nop => true
  | .jmpAbs _ => true
  | .unmodelledOpcode _ => true
  | _ => false

/-! ## Frames -/

/-- Of the host side, only the working frame buffer may differ; the joypad byte is the same. -/
def hostUntouched (s t : State) : Prop :=
  t.host.frame = s.host.frame ∧ t.host.resetDone = s.host.resetDone ∧ t.host.closed = s.host.closed
    ∧ t.host.fault = s.host.fault ∧ t.host.reply = s.host.reply ∧ t.host.inbox = s.host.inbox
    ∧ t.host.inStep = s.host.inStep ∧ t.sched.joypad = s.sched.joypad

/-- The parameters an instance is constructed with are the same (R41). -/
def sameParameters (s t : State) : Prop :=
  t.prg = s.prg ∧ t.params = s.params ∧ t.ext.cpuExec = s.ext.cpuExec ∧ t.ext.fullPpu = s.ext.fullPpu ∧ t.ext.widePpu = s.ext.widePpu
    ∧ t.ext.apuIo = s.ext.apuIo ∧ t.ext.cart = s.ext.cart

/-- The registers that bus writes alone change are the same, and so is the banking; an asserted IRQ line stays asserted (R164). -/
def registersKept (s t : State) : Prop :=
  t.cpu.dmaPending = s.cpu.dmaPending ∧ t.ppu.ctrl = s.ppu.ctrl ∧ t.ppu.mask = s.ppu.mask
    ∧ t.mapper.latch = s.mapper.latch ∧ t.mapper.enabled = s.mapper.enabled ∧ t.ext.bankSt = s.ext.bankSt
    ∧ t.ext.cpuSt = s.ext.cpuSt ∧ (s.mapper.irqLine = true → t.mapper.irqLine = true)

/-- The frame of an operation of n CPU cycles that makes no write but to the stack, wherever its code lies: n cycles of time
passed, and what only writes and host commands change is as it was. The CPU registers and RAM are stated apart. -/
def passes (n : Nat) (s t : State) : Prop :=
  tookCycles n s t ∧ hostUntouched s t ∧ sameParameters s t ∧ registersKept s t

/-- The units on the PPU's side, the host side and the collaborators are as n CPU cycles' dots leave them. -/
def ppuSideIs (n : Nat) (s t : State) : Prop :=
  t.mapper = (dots (3 * n) s).mapper ∧ t.edge = (dots (3 * n) s).edge ∧ t.arb = (dots (3 * n) s).arb
    ∧ t.ppu = (dots (3 * n) s).ppu ∧ t.host = (dots (3 * n) s).host ∧ t.ext = (dots (3 * n) s).ext

/-- The operations that write nothing but the stack, with their CPU cycles and how many bytes from `C.PC` on they read. -/
def readingForm : Instr → Option (Nat × Nat)
  | .brk _ => some (7, 2)
  | .php => some (3, 2)
  | .plp => some (4, 2)
  | .rti => some (6, 2)
  | .cli => some (2, 2)
  | .sei => some (2, 2)
  | .ldaImm _ => some (2, 2)
  | .nop => some (2, 2)
  | .jmpAbs _ => some (3, 3)
  | .irqService => some (7, 1)
  | .nmiService => some (7, 1)
  | _ => none

/-- A command that cannot acknowledge the mapper: it makes no write that selects IRQ_DISABLE_ACK, and it is neither RESET nor a
run of CPU cycles of the program. -/
def neverAcknowledges : Instr → Bool
  | .irqDisableAckW _ _ => false
  | .staAbs a => !(a &&& 0xE001 == 0xE000)
  | .hostBusWrite a v => !(decide (a ≤ 0xFFFF ∧ v ≤ 0xFF) && (BitVec.ofNat 16 a &&& 0xE001 == 0xE000))
  | .hostReset => false
  | .hostStep _ => false
  | .cpuCycle => false
  | .unmodelledOpcode _ => false
  | _ => true

/-! ## Code in RAM or PRG -/

/-- The byte at a RAM or PRG address, with no access made. -/
def byteAt (s : State) (a : Addr) : Byte := if a.toNat ≤ 0x1FFF then ramLoad s a else prgRead s a

/-- The n bytes from an address on. -/
def bytesAt (s : State) : Addr → Nat → List Byte
  | _, 0 => []
  | a, n + 1 => byteAt s a :: bytesAt s (a + 1) n

/-- Each of the n bytes from an address on lies in RAM or PRG. -/
def inMemory : Addr → Nat → Bool
  | _, 0 => true
  | a, n + 1 => placeable a && inMemory (a + 1) n

/-- The three bytes a service sequence or BRK leaves on the stack (R165, R167): PC high, PC low, status, at S, S - 1, S - 2. -/
def stackFrame (m : Memory) (sp : Byte) (pc : Addr) (status : Byte) : Memory :=
  sparseWrite
    (sparseWrite (sparseWrite m (256 + sp.toNat) (highByte pc)) (256 + (sp - 1).toNat) (lowByte pc))
    (256 + (sp - 2).toNat) status

end Sys2Proof.Machine
end

