-- ==== Sys2Proof/Certificates/Slice0/Obligations.lean ====
section
/-! DEFINITION. The statements for the provers, from the numbered rules of spec/. Each docstring names the rules it formalises, and
the log entry where a clause is the model's own choice. -/

open Sys2Proof Sys2Proof.Machine

/-! ## Encoding and decoding -/

/-- Decode of encode is the command itself, for every well-formed command and every operand value (R80 to R84, R88 to R91, R94). -/
def Obligations.DecodeEncodeRoundTrip : Prop :=
  ∀ i : Instr, i.wellFormed = true → decode (encode i) = .ok i

/-- Every (rw, addr) pair decodes to one well-formed row of the table, and that row does what the route of R140 does: a write is
MemWrite, a read is MemRead (R88, R140, R146, R147). -/
def Obligations.EveryBusTransactionRunsItsRoute : Prop :=
  ∀ (a : Addr) (v : Byte) (s : State),
    (∃ i, decodeStimulus (.bus (writeHead a) v) = .ok i ∧ i.wellFormed = true ∧ exec i s = .next (memWrite s a v)) ∧
    (∃ i, decodeStimulus (.bus (readHead a) v) = .ok i ∧ i.wellFormed = true ∧ exec i s = .next (memRead s a).2)

/-- Every 14-bit PPU address has a well-formed class; a wider word has none, and a step inside a STEP that takes one gives the
decoder the truncated address and raises the fault, with the word and the position, which ends the STEP (R66, R94, R250; the
model: logs 2 and 9). -/
def Obligations.EveryPpuAddressHasItsClass : Prop :=
  ∀ (w : BitVec 16) (rest : List Stimulus) (s : State),
    (w.toNat < 0x4000 →
      ∃ i, decodeStimulus (.ppua w) = .ok i ∧ i.wellFormed = true ∧ encode i = .stimulus (.ppua w)) ∧
    (0x4000 ≤ w.toNat → decodeStimulus (.ppua w) = .error (.ppuAddrWidth w) ∧
      (s.host.inStep = true → s.host.inbox = .ppua w :: rest → ∃ i t,
        decodeStimulus (.ppua (w &&& 0x3FFF)) = .ok i ∧
        exec i { s with host := { s.host with inbox := rest } } = .next t ∧
        step s = .next { t with host := { t.host with
          fault := some (.ppuAddrWidth w.toNat s.sched.line s.sched.dot)
          reply := .fault (.ppuAddrWidth w.toNat s.sched.line s.sched.dot)
          inStep := false } }))

/-- Words written out from the encodings of R80, R84, R66 and R89 decode to the commands they stand for. -/
def Obligations.SpecWordsDecode : Prop :=
  decodeStimulus (.bus 0b01100000000000000 0x20) = .ok (.irqLatchW 0xC000 0x20) ∧
  decodeStimulus (.bus 0b01111111111111111 0x00) = .ok (.irqEnableW 0xFFFF 0x00) ∧
  decodeStimulus (.bus 0b11110000000000000 0x00) = .ok (.cartPrgR 0xE000) ∧
  decodeStimulus (.bus 0b00100000000010100 0x02) = .ok (.apuIoW 0x4014 0x02) ∧
  decodeStimulus (.bus 0b00100000000100000 0x02) = .ok (.cartLowW 0x4020 0x02) ∧
  decodeStimulus (.ppua 0b0011111100000000) = .ok (.ppuaPalette 0x3F00) ∧
  decodeStimulus (.ppua 0b0011111011111111) = .ok (.ppuaNtMirror 0x3EFF) ∧
  decode (.op [0b10101001, 0b00001000]) = .ok (.ldaImm 0x08) ∧
  decode (.op [0b10001101, 0b00000001, 0b11100000]) = .ok (.staAbs 0xE001) ∧
  decode (.op [0b01001100, 0b00010110, 0b10000000]) = .ok (.jmpAbs 0x8016)

/-- The opcode byte alone fixes the instruction and its length; operands are not extended and an address is low byte first (R83,
R89, R90). -/
def Obligations.OpcodeByteFixesTheInstruction : Prop :=
  ∀ (b x y : Byte) (rest : List Byte),
    decodeOp (b :: x :: y :: rest) = .ok
      (if b = 0x00 then (.brk x, y :: rest)
       else if b = 0x08 then (.php, x :: y :: rest)
       else if b = 0x28 then (.plp, x :: y :: rest)
       else if b = 0x40 then (.rti, x :: y :: rest)
       else if b = 0x58 then (.cli, x :: y :: rest)
       else if b = 0x78 then (.sei, x :: y :: rest)
       else if b = 0xA9 then (.ldaImm x, y :: rest)
       else if b = 0x8D then (.staAbs (y ++ x), rest)
       else if b = 0xEA then (.nop, x :: y :: rest)
       else if b = 0x4C then (.jmpAbs (y ++ x), rest)
       else (.unmodelledOpcode b, x :: y :: rest))

/-! ## The Mapper IRQ unit -/

/-- R121: a write with addr AND $E001 = $C000 stores the latch and changes nothing else but the open-bus latch. -/
def Obligations.LatchWriteStoresTheByte : Prop :=
  ∀ (a : Addr) (v : Byte) (s : State), a &&& 0xE001 = 0xC000 →
    decodeStimulus (.bus (writeHead a) v) = .ok (.irqLatchW a v) ∧
    exec (.irqLatchW a v) s = .next { s with bus := { openBus := v }, mapper := { s.mapper with latch := v } }

/-- R122: a write with addr AND $E001 = $C001 sets the reload request, whatever its data, and nothing else. -/
def Obligations.ReloadWriteSetsTheRequest : Prop :=
  ∀ (a : Addr) (v : Byte) (s : State), a &&& 0xE001 = 0xC001 →
    decodeStimulus (.bus (writeHead a) v) = .ok (.irqReloadW a v) ∧
    exec (.irqReloadW a v) s = .next { s with bus := { openBus := v }, mapper := { s.mapper with reloadPending := true } }

/-- R123: a write with addr AND $E001 = $E000 clears the enable and the line, whatever its data and whatever the counter; no number
of ticks then asserts the line. -/
def Obligations.DisableAckWriteClearsTheLine : Prop :=
  ∀ (a : Addr) (v : Byte) (s : State), a &&& 0xE001 = 0xE000 → ∃ t,
    decodeStimulus (.bus (writeHead a) v) = .ok (.irqDisableAckW a v) ∧
    exec (.irqDisableAckW a v) s = .next t ∧
    t = { s with bus := { openBus := v }, mapper := { s.mapper with enabled := false, irqLine := false } } ∧
    ∀ n, (ticks n t.mapper).irqLine = false

/-- R124: a write with addr AND $E001 = $E001 sets the enable, whatever its data, and asserts nothing. -/
def Obligations.EnableWriteAssertsNothing : Prop :=
  ∀ (a : Addr) (v : Byte) (s : State), a &&& 0xE001 = 0xE001 →
    decodeStimulus (.bus (writeHead a) v) = .ok (.irqEnableW a v) ∧
    exec (.irqEnableW a v) s = .next { s with bus := { openBus := v }, mapper := { s.mapper with enabled := true } }

/-- R128: a tick reloads, or else counts down and stops at zero; at zero it asserts the line if enabled; nothing else changes. -/
def Obligations.TickRule : Prop :=
  ∀ s : State, ∃ t,
    exec .tick s = .next t ∧
    t = { s with mapper := { s.mapper with
      counter := t.mapper.counter, reloadPending := false, irqLine := t.mapper.irqLine } } ∧
    t.mapper.counter.toNat = (if s.mapper.reloadPending then s.mapper.latch.toNat else s.mapper.counter.toNat - 1) ∧
    t.mapper.irqLine = (s.mapper.irqLine || (decide (t.mapper.counter.toNat = 0) && s.mapper.enabled))

/-- R130: after latch N, reload request and enable, tick k leaves N + 1 - k, and tick N + 1 and none before it asserts the line. -/
def Obligations.CountingLaw : Prop :=
  ∀ (n v w : Byte) (a b c : Addr) (s : State), ∃ s1 s2 s3,
    exec (.irqLatchW a n) s = .next s1 ∧ exec (.irqReloadW b v) s1 = .next s2 ∧ exec (.irqEnableW c w) s2 = .next s3 ∧
    ∀ k, 1 ≤ k → k ≤ n.toNat + 1 →
      (ticks k s3.mapper).counter.toNat = n.toNat + 1 - k ∧
      (ticks k s3.mapper).irqLine = (s.mapper.irqLine || decide (k = n.toNat + 1))

/-- R131: any number of ticks leaves the same counter and reload request whether the unit is enabled or not; while it is disabled
they leave the line alone. -/
def Obligations.CountingIgnoresTheEnable : Prop :=
  ∀ (n : Nat) (m : Mapper) (e : Bool),
    (ticks n { m with enabled := e }).counter = (ticks n m).counter ∧
    (ticks n { m with enabled := e }).reloadPending = (ticks n m).reloadPending ∧
    (ticks n { m with enabled := false }).irqLine = m.irqLine

/-- R125, R133: no bus access asserts the line: not a write of any byte to any address, from the CPU or from the host, and not a
read. -/
def Obligations.NoBusAccessAssertsTheLine : Prop :=
  ∀ (a : Addr) (v : Byte) (n m : Nat) (s t : State), s.mapper.irqLine = false →
    (memWrite s a v).mapper.irqLine = false ∧ (memRead s a).2.mapper.irqLine = false ∧
    (exec (.hostBusWrite n m) s = .next t → t.mapper.irqLine = false)

/-- R127, R164: an asserted line stays asserted over every command but a disable/ack write, RESET, and those that run the
program's own cycles, which may hold such a write. (The model: log 18.) -/
def Obligations.TheLineFallsOnlyOnAcknowledge : Prop :=
  ∀ (i : Instr) (s t : State), neverAcknowledges i = true → s.mapper.irqLine = true → exec i s = .next t →
    t.mapper.irqLine = true

/-! ## The bus -/

/-- R141, R54: a RAM read leaves the byte at addr AND $07FF in the open-bus latch and changes nothing else; a RAM write changes that
byte, the same one at its four mirrors, and the latch, and no other byte or register. -/
def Obligations.RamWriteThenRead : Prop :=
  ∀ (a : Addr) (v : Byte) (s : State), Memory.wf 0 2048 s.ram = true → a.toNat ≤ 0x1FFF → ∃ t,
    exec (.ramR a) s = .next { s with bus := { openBus := sparseRead s.ram (a.toNat % 2048) } } ∧
    exec (.ramW a v) s = .next t ∧
    t = { s with bus := { openBus := v }, ram := t.ram } ∧
    ∀ b : Addr, ramLoad t b = if b.toNat % 2048 = a.toNat % 2048 then v else ramLoad s b

/-- R142, R221, R222: a write to register addr AND 7 keeps the byte in `P.ctrl` (0) or `P.mask` (1), hands it to the external
PPU if there is one, and changes nothing else but the open-bus latch. (The model: log 3.) -/
def Obligations.PpuRegisterWrites : Prop :=
  ∀ (a : Addr) (v : Byte) (s : State), 0x2000 ≤ a.toNat → a.toNat ≤ 0x3FFF →
    exec (.ppuRegW a v) s = .next { s with
      bus := { openBus := v }
      ppu := if a.toNat % 8 = 0 then { s.ppu with ctrl := v }
             else if a.toNat % 8 = 1 then { s.ppu with mask := v }
             else s.ppu
      ext := if s.ext.fullPpu
             then { s.ext with ppuSt := Config.ppuRegWrite s.ext.ppuSt (BitVec.ofNat 3 (a.toNat % 8)) v }
             else s.ext }

/-- R142, R148, R223: a PPUSTATUS read answers {vblank, 0, 0, the latch's bits 4 to 0} from the stub, clears vblank, and
becomes the latch; a full PPU supplies bits 6 and 5 (log 19). Every other register is the external PPU's: undriven without
one. (The model: log 3.) -/
def Obligations.PpuRegisterReads : Prop :=
  ∀ (a : Addr) (s : State), 0x2000 ≤ a.toNat → a.toNat ≤ 0x3FFF → ∃ t,
    exec (.ppuRegR a) s = .next t ∧
    (s.ext.fullPpu = false → a.toNat % 8 = 2 →
      t = { s with
        bus := { openBus := (if s.ppu.vblank then 0x80 else 0x00) ||| (s.bus.openBus &&& 0x1F) }
        ppu := { s.ppu with vblank := false } }) ∧
    (s.ext.fullPpu = false → a.toNat % 8 ≠ 2 → t = s) ∧
    (s.ext.fullPpu = true → a.toNat % 8 = 2 →
      t = { s with
        bus := { openBus := (if s.ppu.vblank then 0x80 else 0x00)
          ||| ((Config.ppuStatusBits s.ext.ppuSt).1.setWidth 8 <<< 5) ||| (s.bus.openBus &&& 0x1F) }
        ppu := { s.ppu with vblank := false }
        ext := { s.ext with ppuSt := (Config.ppuStatusBits s.ext.ppuSt).2 } }) ∧
    (s.ext.fullPpu = true → a.toNat % 8 ≠ 2 →
      t = { s with
        bus := { openBus :=
          (Config.ppuRegRead s.ext.ppuSt (BitVec.ofNat 3 (a.toNat % 8))).1.getD s.bus.openBus }
        ext := { s.ext with ppuSt := (Config.ppuRegRead s.ext.ppuSt (BitVec.ofNat 3 (a.toNat % 8))).2 } })

/-- R143, R148: the APU/IO window is the external device's; a read sees the step's joypad byte, an undriven one leaves the
latch, and a write to $4014 alone also requests a DMA stall from that page. (The model: log 3.) -/
def Obligations.ApuIoAccess : Prop :=
  ∀ (a : Addr) (v : Byte) (s : State), 0x4000 ≤ a.toNat → a.toNat ≤ 0x401F →
    exec (.apuIoW a v) s = .next { s with
      bus := { openBus := v }
      cpu := if a = 0x4014 then { s.cpu with dmaPending := some v } else s.cpu
      ext := if s.ext.apuIo then { s.ext with apuSt := Config.apuIoWrite s.ext.apuSt a v } else s.ext } ∧
    (s.ext.apuIo = false → exec (.apuIoR a) s = .next s) ∧
    (s.ext.apuIo = true → exec (.apuIoR a) s = .next { s with
      bus := { openBus := (Config.apuIoRead s.ext.apuSt a s.sched.joypad).1.getD s.bus.openBus }
      ext := { s.ext with apuSt := (Config.apuIoRead s.ext.apuSt a s.sched.joypad).2 } })

/-- R86, R87, R144, R145: a read at $8000-$FFFF, IRQ register addresses included, leaves `prg_read` of it in the latch and
nothing else; a write at $8000-$BFFF reaches banking alone; $4020-$7FFF is the cartridge's own, which may depend on the banking and
leaves it as it was, and is undriven without one. (The model: logs 3 and 5.) -/
def Obligations.CartridgeAccess : Prop :=
  ∀ (a : Addr) (v : Byte) (s : State),
    (0x8000 ≤ a.toNat → exec (.cartPrgR a) s = .next { s with bus := { openBus := prgRead s a } }) ∧
    (0x8000 ≤ a.toNat → a.toNat ≤ 0xBFFF → exec (.bankW a v) s = .next { s with
      bus := { openBus := v }
      ext := if s.ext.cart then { s.ext with bankSt := Config.bankWrite s.ext.bankSt a v } else s.ext }) ∧
    (0x4020 ≤ a.toNat → a.toNat ≤ 0x7FFF →
      exec (.cartLowW a v) s = .next { s with
        bus := { openBus := v }
        ext := if s.ext.cart then { s.ext with cartSt := Config.cartLowWrite s.ext.cartSt s.ext.bankSt a v } else s.ext } ∧
      (s.ext.cart = false → exec (.cartLowR a) s = .next s) ∧
      (s.ext.cart = true → exec (.cartLowR a) s = .next { s with
        bus := { openBus := (Config.cartLowRead s.ext.cartSt s.ext.bankSt a).1.getD s.bus.openBus }
        ext := { s.ext with cartSt := (Config.cartLowRead s.ext.cartSt s.ext.bankSt a).2 } }))

/-- R87, R88, R120: no write below $C000 and no read at all reaches the Mapper IRQ unit; a write at $C000 or above changes it by its
register of R84 and, but for the latch, nothing outside it. -/
def Obligations.MapperSeesOnlyItsOwnRange : Prop :=
  ∀ (a : Addr) (v : Byte) (s : State),
    (memRead s a).2.mapper = s.mapper ∧
    (a.toNat < 0xC000 → (memWrite s a v).mapper = s.mapper) ∧
    (0xC000 ≤ a.toNat → memWrite s a v = { s with
      bus := { openBus := v }
      mapper := if a.toNat < 0xE000 then
          (if a.toNat % 2 = 0 then { s.mapper with latch := v } else { s.mapper with reloadPending := true })
        else if a.toNat % 2 = 0 then { s.mapper with enabled := false, irqLine := false }
        else { s.mapper with enabled := true } })

/-! ## The PPU address decoder -/

/-- R66, R206, R207, R209: each class drives its A12; the edge detector takes it, and a rise after P_A12_LOW_MIN low dots on an
active line (261 only with P_PRERENDER_TICKS) whose gate is clear ticks the mapper; nothing else changes. (The model: log 12.) -/
def Obligations.PpuAddressRows : Prop :=
  ∀ (p : PAddr) (s : State),
    let active := (s.ppu.mask.getLsbD 3 || s.ppu.mask.getLsbD 4)
      && (decide (s.sched.line ≤ 239) || decide (s.sched.line = 261) && s.params.prerenderTicks)
    let fires := active && !s.edge.prevA12 && decide (s.params.a12LowMin ≤ s.edge.lowRun) && !s.edge.firedLine
    let low : State := { s with edge := { s.edge with
      prevA12 := false, lowRun := min (s.edge.lowRun + 1) s.params.a12LowMin } }
    let high : State := { s with
      edge := { prevA12 := true, lowRun := 0, firedLine := s.edge.firedLine || fires }
      mapper := if fires then mapperTick s.mapper else s.mapper }
    ((Instr.ppuaPattern0 p).wellFormed = true → exec (.ppuaPattern0 p) s = .next low) ∧
    ((Instr.ppuaNametable p).wellFormed = true → exec (.ppuaNametable p) s = .next low) ∧
    ((Instr.ppuaPattern1 p).wellFormed = true → exec (.ppuaPattern1 p) s = .next high) ∧
    ((Instr.ppuaPalette p).wellFormed = true → exec (.ppuaPalette p) s = .next high) ∧
    ((Instr.ppuaNtMirror p).wellFormed = true → exec (.ppuaNtMirror p) s = .next high)

/-- R66, R202 to R205: A12 is 1 at exactly the dots that the tables of the reference schedule give: in the second half of a
background slot with `P.ctrl[4]` set, and of a sprite slot with its sprite pattern at table 1, which without a full PPU every
8x16 slot has (R203). Where nothing is fetched the address is 0. Every address is a pattern-table or a $2000-$2FFF address, with a
full PPU too, so that A12 is 1 exactly on those of pattern table 1 (R66). (The model: log 10.) -/
def Obligations.FetchScheduleDrivesA12 : Prop :=
  ∀ (l d : Nat) (s : State), d ≤ 340 →
    ((ppuFetchAddr s l d).getLsbD 12 = true ↔
      (s.ppu.mask.getLsbD 3 || s.ppu.mask.getLsbD 4) = true ∧ (l ≤ 239 ∨ l = 261) ∧
        ((s.ppu.ctrl.getLsbD 4 = true ∧
            ((∃ slot, slot < 32 ∧ 8 * slot + 5 ≤ d ∧ d ≤ 8 * slot + 8) ∨
              (∃ slot, slot < 2 ∧ 8 * slot + 325 ≤ d ∧ d ≤ 8 * slot + 328))) ∨
          (∃ slot, slot < 8 ∧ 8 * slot + 261 ≤ d ∧ d ≤ 8 * slot + 264 ∧
            (if s.ppu.ctrl.getLsbD 5 then spr16A12 s l slot else s.ppu.ctrl.getLsbD 3) = true))) ∧
    (s.ext.fullPpu = false → ∀ slot, spr16A12 s l slot = true) ∧
    ((s.ppu.mask.getLsbD 3 = false ∧ s.ppu.mask.getLsbD 4 = false) ∨ (240 ≤ l ∧ l ≤ 260) → ppuFetchAddr s l d = 0) ∧
    (ppuFetchAddr s l d).toNat ≤ 0x2FFF ∧
    ((ppuFetchAddr s l d).getLsbD 12 = true ↔ 0x1000 ≤ (ppuFetchAddr s l d).toNat ∧ (ppuFetchAddr s l d).toNat ≤ 0x1FFF)

/-- R208: from dot 0 of any line, the dots of that line leave the mapper as it was or ticked once; and once a tick has fired on a
line, no dot of the rest of that line changes the mapper. -/
def Obligations.OneTickPerLine : Prop :=
  ∀ (n : Nat) (s : State),
    (s.sched.dot = 0 → n ≤ 341 → (dots n s).mapper = s.mapper ∨ (dots n s).mapper = mapperTick s.mapper) ∧
    (s.edge.firedLine = true → 0 < s.sched.dot → s.sched.dot + n ≤ 341 → (dots n s).mapper = s.mapper)

/-- R207: while rendering is off, on the lines 240 to 260 in any case, and on line 261 without P_PRERENDER_TICKS, no run of dots
changes the mapper. -/
def Obligations.NoTickOutsideRendering : Prop :=
  ∀ (n : Nat) (s : State),
    (s.ppu.mask.getLsbD 3 = false → s.ppu.mask.getLsbD 4 = false → (dots n s).mapper = s.mapper) ∧
    (240 ≤ s.sched.line → s.sched.dot ≤ 340 →
      341 * s.sched.line + s.sched.dot + n ≤ 341 * (if s.params.prerenderTicks then 261 else 262) →
      (dots n s).mapper = s.mapper)

/-- R210: with 8x8 sprites at pattern table 1, the background at table 0 and rendering on, each line 0 to 239, and line 261 with
P_PRERENDER_TICKS, ticks once, in its dot 261 and not before; and the frame's 89341 dots up to dot 340 of line 261 tick 241 times,
or 240 without P_PRERENDER_TICKS; for every P_A12_LOW_MIN up to the 261 low dots that come before dot 261, if no fault stands or
can come from the PPU's address lines. -/
def Obligations.StandardConfigurationTicks : Prop :=
  ∀ s : State, (s.ppu.mask.getLsbD 3 || s.ppu.mask.getLsbD 4) = true →
    s.ppu.ctrl.getLsbD 5 = false → s.ppu.ctrl.getLsbD 4 = false → s.ppu.ctrl.getLsbD 3 = true → s.sched.dot = 0 →
    unstopped s = true → s.params.a12LowMin ≤ 261 →
    ((s.sched.line ≤ 239 ∨ (s.sched.line = 261 ∧ s.params.prerenderTicks = true)) →
      (∀ n, n ≤ 261 → (dots n s).mapper = s.mapper) ∧
      (∀ n, 262 ≤ n → n ≤ 340 → (dots n s).mapper = mapperTick s.mapper)) ∧
    (s.sched.line = 0 →
      (dots 89341 s).mapper = ticks (if s.params.prerenderTicks then 241 else 240) s.mapper)

/-! ## The scheduler -/

/-- R104, R105, R106: a dot moves the position to the next, skipping dot 340 of line 261 on an odd frame with rendering on and
P_ODD_FRAME_SKIP; the parity toggles exactly at the wrap; the frame is done in dot P_STEP_END_POS, or by FRAME_END. A dot that an
address too wide stops moves nothing (R94, R250; log 9). (The model: FRAME_END: log 13.) -/
def Obligations.DotMovesThePosition : Prop :=
  ∀ s : State, exec .frameEnd s = .next { s with sched := { s.sched with frameDone := true } } ∧
    (s.host.fault = none → ∃ t,
      exec .ppuDot s = .next t ∧
      (let skip := decide (s.sched.line = 261 ∧ s.sched.dot = 339) && s.sched.oddFrame
          && (s.ppu.mask.getLsbD 3 || s.ppu.mask.getLsbD 4) && s.params.oddFrameSkip
       let wraps := skip || decide (s.sched.line = 261 ∧ s.sched.dot = 340)
       t.sched = if 0x4000 ≤ (ppuBusWord s s.sched.line s.sched.dot).toNat then s.sched else { s.sched with
        line := if wraps then 0 else if s.sched.dot = 340 then s.sched.line + 1 else s.sched.line
        dot := if wraps ∨ s.sched.dot = 340 then 0 else s.sched.dot + 1
        oddFrame := if wraps then !s.sched.oddFrame else s.sched.oddFrame
        frameDone := s.sched.frameDone
          || decide (s.sched.line = s.params.stepEndLine ∧ s.sched.dot = s.params.stepEndDot) }))

/-- R170: one NMI sample sets the pending bit on a rising edge of P.vblank AND P.ctrl[7], never clears it, and keeps the level. -/
def Obligations.NmiSampleKeepsARisingEdge : Prop :=
  ∀ s : State,
    exec .nmiEdge s = .next { s with arb := {
      nmiPrev := s.ppu.vblank && s.ppu.ctrl.getLsbD 7
      nmiPending := s.arb.nmiPending || (s.ppu.vblank && s.ppu.ctrl.getLsbD 7 && !s.arb.nmiPrev) } }

/-- R103, R206, R208, R94: a dot clears the per-line gate at dot 0, gives bit 12 of its address to `edge_step`, and ticks the mapper
exactly where that is true; then vertical blank begins in dot (241, 1) or ends in dot (261, 1) (R223), a full PPU writes its pixels
(R40), and the NMI is sampled (R170). An address too wide raises its fault after the decoder, and the dot ends there; an unstopped
instance drives none (R250; log 9). Nothing else changes. -/
def Obligations.DotUpdatesVblankThenSamplesNmi : Prop :=
  ∀ s : State, s.host.fault = none →
    let l := s.sched.line
    let d := s.sched.dot
    let w := ppuBusWord s l d
    let wide := decide (0x4000 ≤ w.toNat)
    let gate : Edge := { s.edge with firedLine := s.edge.firedLine && decide (d ≠ 0) }
    let active := (s.ppu.mask.getLsbD 3 || s.ppu.mask.getLsbD 4)
      && (decide (l ≤ 239) || decide (l = 261) && s.params.prerenderTicks)
    let raised := FaultReason.ppuAddrWidth w.toNat l d
    ∃ t, exec .ppuDot s = .next t ∧
      t.edge = edgeNext s.params.a12LowMin gate (w.getLsbD 12) active ∧
      t.mapper = (if edgeFires s.params.a12LowMin gate (w.getLsbD 12) active then mapperTick s.mapper else s.mapper) ∧
      t.ppu = { s.ppu with vblank :=
        if wide then s.ppu.vblank else if l = 241 ∧ d = 1 then true else if l = 261 ∧ d = 1 then false else s.ppu.vblank } ∧
      t.arb = (if wide then s.arb else {
        nmiPrev := t.ppu.vblank && s.ppu.ctrl.getLsbD 7
        nmiPending := s.arb.nmiPending || (t.ppu.vblank && s.ppu.ctrl.getLsbD 7 && !s.arb.nmiPrev) }) ∧
      t.host = { s.host with
        fb := if s.ext.fullPpu && !wide then writePixels s.host.fb (Config.ppuRenderDot s.ext.ppuSt l d).1 else s.host.fb
        fault := if wide then some raised else none
        reply := if wide then .fault raised else s.host.reply } ∧
      t.ext = (if s.ext.fullPpu && !wide then { s.ext with ppuSt := (Config.ppuRenderDot s.ext.ppuSt l d).2 } else s.ext) ∧
      t.cpu = s.cpu ∧ t.bus = s.bus ∧ t.ram = s.ram ∧ t.prg = s.prg ∧ t.params = s.params ∧
      (unstopped s = true → wide = false)

/-- R103, R214: the dots read nothing of the CPU, the open-bus latch or RAM, and write nothing of them. -/
def Obligations.DotsIgnoreTheCpu : Prop :=
  ∀ (n : Nat) (s : State) (c : Cpu) (b : BusUnit) (m : Memory),
    dots n { s with cpu := c, bus := b, ram := m } = { dots n s with cpu := c, bus := b, ram := m }

/-- R100, R102, R160, R190: a CPU cycle is three dots, then the cycle's action, at a boundary after the arbiter's choice, and then
the count; a fault of a dot or a refused action ends it where it stands (R250; logs 1, 8 and 9). On an unstopped instance it is
one cycle of time, or a refused opcode fetch, which only an instance without `cpu_exec` has. -/
def Obligations.CpuCycleIsThreeDots : Prop :=
  ∀ s : State, ∃ t,
    exec .cpuCycle s = .next t ∧
    (let d := dots 3 s
     let u := performCycle (boundary d)
     ((d.host.fault ≠ none → t = d) ∧
      (d.host.fault = none → t =
        if u.host.fault = none then { u with sched := { u.sched with cpuCycles := u.sched.cpuCycles + 1 } } else u) ∧
      (unstopped s = true → d.host.fault = none ∧
        ((u.host.fault = none ∧ tookCycles 1 s t) ∨
          (s.ext.cpuExec = false ∧ t.sched = d.sched ∧
            ∃ a op, t.host.fault = some (.unmodelledOpcode a op) ∧ t.host.reply = .refused (.unmodelledOpcode a op))))))

/-- R43, R102, R108, R165: an IRQ line that is high after the cycle's three dots, the mapper's or P_EXT_IRQ's, is taken in that very
cycle if it is a boundary, with I clear and no DMA or NMI waiting: the cycle is the first of the service sequence. (The model:
log 22.) -/
def Obligations.IrqIsTakenInTheTicksOwnCycle : Prop :=
  ∀ s : State, unstopped s = true → s.cpu.op = .none → s.cpu.dmaPending = none →
    (s.params.nmiPresent = false ∨ (dots 3 s).arb.nmiPending = false) →
    ((dots 3 s).mapper.irqLine = true ∨ s.params.extIrq = true) → s.cpu.p.getLsbD 2 = false → ∃ t lo,
      exec .cpuCycle s = .next t ∧ t.cpu = { s.cpu with op := .irqSeq 2 lo } ∧ t.mapper = (dots 3 s).mapper ∧ t.ram = s.ram

/-! ## The arbiter, DMA and the service sequences -/

/-- R43, R161, R162, R254: at a boundary a DMA stall comes first, then a pending NMI where P_NMI_PRESENT, then the IRQ of the
mapper or of P_EXT_IRQ with I clear, then the next instruction; only the request taken is cleared; inside an operation there is no
boundary. (The model: log 13.) -/
def Obligations.BoundaryPriority : Prop :=
  ∀ s : State,
    (s.cpu.op ≠ .none → exec .boundary s = .next s) ∧
    (s.cpu.op = .none →
      (∀ p, s.cpu.dmaPending = some p → exec .boundary s = .next { s with cpu := { s.cpu with
        dmaPending := none, op := .dma p 1 (513 + s.sched.cpuCycles % 2) 0 } }) ∧
      (s.cpu.dmaPending = none → s.params.nmiPresent = true → s.arb.nmiPending = true → exec .boundary s = .next { s with
        arb := { s.arb with nmiPending := false }, cpu := { s.cpu with op := .nmiSeq 1 0 } }) ∧
      (s.cpu.dmaPending = none → (s.params.nmiPresent = false ∨ s.arb.nmiPending = false) →
        (s.mapper.irqLine = true ∨ s.params.extIrq = true) → s.cpu.p.getLsbD 2 = false →
        exec .boundary s = .next { s with cpu := { s.cpu with op := .irqSeq 1 0 } }) ∧
      (s.cpu.dmaPending = none → (s.params.nmiPresent = false ∨ s.arb.nmiPending = false) →
        ((s.mapper.irqLine = false ∧ s.params.extIrq = false) ∨ s.cpu.p.getLsbD 2 = true) →
        exec .boundary s = .next { s with cpu := { s.cpu with op := .fetch } }))

/-- R172: a DMA stall takes 513 cycles, or 514 from an odd cycle count, with no boundary inside: the first of them idle, then 256
pairs of a read of {page, i} and a hand-over of that byte to PPU register 4, which leaves it in the latch; it changes no CPU
register and no RAM, and its last read, of the page's byte 255, is left in the latch when the page is RAM. (The model: log 22.) -/
def Obligations.DmaStallTakes513Or514Cycles : Prop :=
  ∀ (p : Byte) (s : State), unstopped s = true → s.cpu.op = .none → s.cpu.dmaPending = some p →
    let n := 513 + s.sched.cpuCycles % 2
    let t := cycles n s
    (∀ k, 1 ≤ k → k < n → ∃ b, (cycles k s).cpu.op = .dma p (k + 1) n b) ∧
    (∀ i, i < 256 →
      let r := memRead (dots 3 (cycles (n - 512 + 2 * i) s)) (p ++ BitVec.ofNat 8 i)
      let u := dots 3 (cycles (n - 512 + 2 * i + 1) s)
      cycles (n - 512 + 2 * i + 1) s = { r.2 with
        cpu := { r.2.cpu with op := .dma p (n - 512 + 2 * i + 2) n r.1 }
        sched := { r.2.sched with cpuCycles := r.2.sched.cpuCycles + 1 } } ∧
      cycles (n - 512 + 2 * i + 2) s = { ppuRegWrite u 4 r.1 with
        bus := { openBus := r.1 }
        cpu := { u.cpu with op := if i = 255 then .none else .dma p (n - 512 + 2 * i + 3) n r.1 }
        sched := { u.sched with cpuCycles := u.sched.cpuCycles + 1 } }) ∧
    t.cpu = { s.cpu with op := .none, dmaPending := none } ∧ t.ram = s.ram ∧ tookCycles n s t ∧
    (p.toNat < 0x20 → t.bus.openBus = sparseRead s.ram (p.toNat % 8 * 256 + 255))

/-- R165, R167: the IRQ sequence saves PC high, PC low and the status with bit 5 set and bit 4 clear, sets I, loads the PC
from $FFFE/$FFFF, and takes seven cycles; the line stays as the dots leave it. (The model: logs 6 and 14.) -/
def Obligations.IrqServiceEntersTheHandler : Prop :=
  ∀ s : State, unstopped s = true → ∃ t,
    exec .irqService s = .next t ∧
    t.cpu = { s.cpu with
      pc := prgRead s 0xFFFF ++ prgRead s 0xFFFE, s := s.cpu.s - 3, p := s.cpu.p ||| 0x04, op := .none } ∧
    t.ram = stackFrame s.ram s.cpu.s s.cpu.pc ((s.cpu.p &&& 0xCF) ||| 0x20) ∧
    t.bus.openBus = prgRead s 0xFFFF ∧ passes 7 s t

/-- R168: the NMI sequence is the IRQ sequence with the vector at $FFFA/$FFFB, whatever I holds. (The model: logs 6 and 14.) -/
def Obligations.NmiServiceEntersTheHandler : Prop :=
  ∀ s : State, unstopped s = true → ∃ t,
    exec .nmiService s = .next t ∧
    t.cpu = { s.cpu with
      pc := prgRead s 0xFFFB ++ prgRead s 0xFFFA, s := s.cpu.s - 3, p := s.cpu.p ||| 0x04, op := .none } ∧
    t.ram = stackFrame s.ram s.cpu.s s.cpu.pc ((s.cpu.p &&& 0xCF) ||| 0x20) ∧
    t.bus.openBus = prgRead s 0xFFFB ∧ passes 7 s t

/-- R165, R178, R256: an RTI right after the IRQ service restores every CPU register, wherever the stack pointer stands and
wherever the handler lies. (The model: log 6.) -/
def Obligations.RtiUndoesTheIrqService : Prop :=
  ∀ s : State, unstopped s = true → Memory.wf 0 2048 s.ram = true → s.cpu.p &&& 0x30 = 0x00 → ∃ t u,
    exec .irqService s = .next t ∧ exec .rti t = .next u ∧ u.cpu = { s.cpu with op := .none }

/-! ## Instructions, wherever their code lies

On an unstopped instance; FaultIsSticky says what they do under a standing fault, and CpuCycleIsThreeDots where a dot raises one. -/

/-- R174, R175: SEI sets I and CLI clears it, in two cycles; every other flag and register stays but the PC, which moves past
the opcode. (The model: log 6.) -/
def Obligations.SeiSetsAndCliClearsTheFlag : Prop :=
  ∀ s : State, unstopped s = true → ∃ t u,
    exec .sei s = .next t ∧
    t.cpu = { s.cpu with pc := s.cpu.pc + 1, p := s.cpu.p ||| 0x04, op := .none } ∧ t.ram = s.ram ∧ passes 2 s t ∧
    exec .cli s = .next u ∧
    u.cpu = { s.cpu with pc := s.cpu.pc + 1, p := s.cpu.p &&& 0xFB, op := .none } ∧ u.ram = s.ram ∧ passes 2 s u ∧
    (inMemory s.cpu.pc 2 = true →
      t.bus.openBus = byteAt s (s.cpu.pc + 1) ∧ u.bus.openBus = byteAt s (s.cpu.pc + 1))

/-- R183, R184: NOP takes two cycles and moves the PC by one; JMP takes three and moves it to its operand; no flag changes.
(The model: log 6.) -/
def Obligations.NopAndJmpMoveThePc : Prop :=
  ∀ (addr : Addr) (s : State), unstopped s = true → ∃ t u,
    exec .nop s = .next t ∧
    t.cpu = { s.cpu with pc := s.cpu.pc + 1, op := .none } ∧ t.ram = s.ram ∧ passes 2 s t ∧
    exec (.jmpAbs addr) s = .next u ∧
    u.cpu = { s.cpu with pc := addr, op := .none } ∧ u.ram = s.ram ∧ passes 3 s u ∧
    (inMemory s.cpu.pc 3 = true →
      t.bus.openBus = byteAt s (s.cpu.pc + 1) ∧ u.bus.openBus = byteAt s (s.cpu.pc + 2))

/-- R181: LDA loads the accumulator, N and Z from its operand, in two cycles; no other flag changes. (The model: log 6.) -/
def Obligations.LdaLoadsTheAccumulator : Prop :=
  ∀ (imm : Byte) (s : State), unstopped s = true → ∃ t,
    exec (.ldaImm imm) s = .next t ∧
    t.cpu = { s.cpu with pc := s.cpu.pc + 2, a := imm, p := t.cpu.p, op := .none } ∧
    (∀ k, k < 8 → t.cpu.p.getLsbD k =
      if k = 7 then imm.getLsbD 7 else if k = 1 then decide (imm = 0) else s.cpu.p.getLsbD k) ∧
    t.ram = s.ram ∧ passes 2 s t ∧ (inMemory s.cpu.pc 2 = true → t.bus.openBus = byteAt s (s.cpu.pc + 1))

/-- R182, R111: STA takes four cycles and writes the accumulator to its address last, after that cycle's dots: the result is
exactly that bus write on a state u with every register but the PC, and all of RAM, as before, and, with its code in RAM or PRG, the
PPU's side as the four cycles' dots leave it. So only the byte at that address, or the register it selects, is stored to. (The
model: log 6.) -/
def Obligations.StaStoresTheAccumulator : Prop :=
  ∀ (addr : Addr) (s : State), unstopped s = true → ∃ u,
    exec (.staAbs addr) s = .next (memWrite u addr s.cpu.a) ∧
    u.cpu = { s.cpu with pc := s.cpu.pc + 3, op := .none } ∧ u.ram = s.ram ∧ passes 4 s u ∧
    (∀ b : Addr, b.toNat ≤ 0x1FFF → ¬(addr.toNat ≤ 0x1FFF ∧ b.toNat % 2048 = addr.toNat % 2048) →
      ramLoad (memWrite u addr s.cpu.a) b = ramLoad s b) ∧
    (addr.toNat ≤ 0x1FFF → (memWrite u addr s.cpu.a).ram = sparseWrite s.ram (addr.toNat % 2048) s.cpu.a) ∧
    (inMemory s.cpu.pc 3 = true → ppuSideIs 4 s u ∧ u.bus.openBus = byteAt s (s.cpu.pc + 2))

/-- R176, R167: PHP pushes the status with bits 5 and 4 set, in three cycles; S goes down by one, and no flag changes. (The
model: log 6.) -/
def Obligations.PhpPushesTheStatus : Prop :=
  ∀ s : State, unstopped s = true → ∃ t,
    exec .php s = .next t ∧
    t.cpu = { s.cpu with pc := s.cpu.pc + 1, s := s.cpu.s - 1, op := .none } ∧
    t.ram = sparseWrite s.ram (256 + s.cpu.s.toNat) (s.cpu.p ||| 0x30) ∧
    t.bus.openBus = s.cpu.p ||| 0x30 ∧ passes 3 s t

/-- R177: PLP pulls the whole status but bits 5 and 4, in four cycles; S goes up by one, and RAM stays. (The model: log 6.) -/
def Obligations.PlpPullsTheStatus : Prop :=
  ∀ s : State, unstopped s = true → ∃ t,
    exec .plp s = .next t ∧
    t.cpu = { s.cpu with
      pc := s.cpu.pc + 1, s := s.cpu.s + 1, p := sparseRead s.ram (256 + (s.cpu.s + 1).toNat) &&& 0xCF, op := .none } ∧
    t.bus.openBus = sparseRead s.ram (256 + (s.cpu.s + 1).toNat) ∧ t.ram = s.ram ∧ passes 4 s t

/-- R178: RTI pulls the status without bits 5 and 4, then the PC low byte first, adding nothing to it, in six cycles; RAM
stays. (The model: log 6.) -/
def Obligations.RtiPullsTheStatusAndThePc : Prop :=
  ∀ s : State, unstopped s = true → ∃ t,
    exec .rti s = .next t ∧
    t.cpu = { s.cpu with
      pc := sparseRead s.ram (256 + (s.cpu.s + 3).toNat) ++ sparseRead s.ram (256 + (s.cpu.s + 2).toNat)
      s := s.cpu.s + 3
      p := sparseRead s.ram (256 + (s.cpu.s + 1).toNat) &&& 0xCF
      op := .none } ∧
    t.bus.openBus = sparseRead s.ram (256 + (s.cpu.s + 3).toNat) ∧ t.ram = s.ram ∧ passes 6 s t

/-- R179, R167: BRK saves its own address + 2 and the status with bits 5 and 4 set, sets I, and goes to the IRQ vector, in
seven cycles, whatever I holds and whatever the padding byte. (The model: log 6.) -/
def Obligations.BrkEntersTheHandler : Prop :=
  ∀ (pad : Byte) (s : State), unstopped s = true → ∃ t,
    exec (.brk pad) s = .next t ∧
    t.cpu = { s.cpu with
      pc := prgRead s 0xFFFF ++ prgRead s 0xFFFE, s := s.cpu.s - 3, p := s.cpu.p ||| 0x04, op := .none } ∧
    t.ram = stackFrame s.ram s.cpu.s (s.cpu.pc + 2) (s.cpu.p ||| 0x30) ∧
    t.bus.openBus = prgRead s 0xFFFF ∧ passes 7 s t

/-- R190, R250: without `cpu_exec`, an opcode outside R89 is refused in its first cycle: the mark, with the opcode and its address,
stands in `H.fault`; the PC is past the opcode, and nothing else of the CPU and nothing of RAM changes (the cycle is not counted and
`C.op` stays at the fetch: the model's reading, log 8). -/
def Obligations.UnmodelledOpcodeIsRefused : Prop :=
  ∀ (op : Byte) (s : State), unstopped s = true → s.ext.cpuExec = false → ∃ t,
    exec (.unmodelledOpcode op) s = .next t ∧
    t.host.fault = some (.unmodelledOpcode s.cpu.pc op) ∧ t.host.reply = .refused (.unmodelledOpcode s.cpu.pc op) ∧
    t.host.frame = s.host.frame ∧ t.cpu = { s.cpu with pc := s.cpu.pc + 1, op := .fetch } ∧ t.ram = s.ram ∧
    t.sched = (dots 3 s).sched ∧ registersKept s t

/-- R186, R44: with `cpu_exec`, an opcode outside R89 is handed to it after its fetch cycle; each further cycle is three dots,
then the one access that `cpu_exec` asks for, then the registers it leaves, with I as it was and bits 5 and 4 not stored, up to
the cycle it calls its last. The command performs such cycles up to a boundary, or 513 of them. (The model: logs 6, 7 and 18.) -/
def Obligations.UnmodelledOpcodeGoesToTheEngine : Prop :=
  ∀ (op : Byte) (s : State), unstopped s = true → s.ext.cpuExec = true →
    (∃ t u n, exec (.unmodelledOpcode op) s = .next t ∧
      u.cpu = { s.cpu with pc := s.cpu.pc + 1, op := .external op 2 } ∧ u.ram = s.ram ∧ passes 1 s u ∧
      t = cycles n u ∧ n ≤ 513 ∧ hostUntouched s t ∧ sameParameters s t ∧ t.cpu.p.getLsbD 2 = s.cpu.p.getLsbD 2 ∧
      t.sched.cpuCycles = s.sched.cpuCycles + 1 + n ∧
      (t.cpu.op = .none ∨ (n = 513 ∧ t.cpu.op = .external op 515))) ∧
    (∀ k, s.cpu.op = .external op k →
      let d := dots 3 s
      let r := match Config.cpuExecRequest d.ext.cpuSt op k (cpuRegs d) with
        | .idle => (0x00, d)
        | .read a => memRead d a
        | .write a v => (0x00, memWrite d a v)
      let e := Config.cpuExecResult d.ext.cpuSt op k (cpuRegs d) r.1
      ∃ t, exec .cpuCycle s = .next t ∧ tookCycles 1 s t ∧
        t = { r.2 with
          cpu := { r.2.cpu with
            pc := e.regs.pc, s := e.regs.s, p := (e.regs.p &&& 0xCB) ||| (s.cpu.p &&& 0x04), a := e.regs.a
            op := if e.last then .none else .external op (k + 1) }
          ext := { r.2.ext with cpuSt := e.next }
          sched := { r.2.sched with cpuCycles := r.2.sched.cpuCycles + 1 } })

/-- R102, R183: when the bytes it reads from `C.PC` on lie in RAM or PRG, an operation that writes nothing but the stack
leaves the PPU's side, the mapper, the arbiter, the host side and the collaborators exactly as its cycles' dots leave them.
(The model: log 6.) -/
def Obligations.CodeInMemoryLeavesThePpuToTheDots : Prop :=
  ∀ (i : Instr) (n k : Nat) (s : State), unstopped s = true → readingForm i = some (n, k) → inMemory s.cpu.pc k = true → ∃ t,
    exec i s = .next t ∧ ppuSideIs n s t ∧ tookCycles n s t ∧ t.prg = s.prg

/-! ## The host commands -/

/-- R231, R270, R271, R272, R273: RESET sets every field to its reset value (the position, the parity and S to P_RESET_PPU_POS and
P_RESET_S), the PC from the reset vector under the power-on mapping, and clears the fault; it keeps the parameters and, of the
model's own fields, the stimuli still waiting, and no STEP is in progress (log 2). After CLOSE it only answers fault(closed). -/
def Obligations.ResetSetsEveryField : Prop :=
  ∀ s : State,
    (s.host.closed = true →
      exec .hostReset s = .next { s with host := { s.host with reply := .fault (.closed .reset) } }) ∧
    (s.host.closed = false →
      exec .hostReset s = .next {
        mapper := { counter := 0, latch := 0, reloadPending := false, enabled := false, irqLine := false }
        edge := { prevA12 := false, lowRun := 0, firedLine := false }
        arb := { nmiPrev := false, nmiPending := false }
        sched := { line := s.params.resetLine, dot := s.params.resetDot, oddFrame := s.params.resetOddFrame, frameDone := false,
                   cpuCycles := 0, joypad := 0 }
        bus := { openBus := 0 }
        cpu := { pc := sparseRead s.prg 0xFFFD ++ sparseRead s.prg 0xFFFC, s := s.params.resetS, p := 0x04, a := 0x00,
                 op := .none, dmaPending := none }
        ppu := { ctrl := 0x00, mask := 0x00, vblank := false }
        host := { fb := [], frame := [], resetDone := true, closed := false, fault := none, reply := .done,
                  inStep := false, inbox := s.host.inbox }
        ext := { s.ext with cpuSt := 0, ppuSt := 0, apuSt := 0, cartSt := 0, bankSt := 0 }
        ram := []
        prg := s.prg
        params := s.params })

/-- R230, R239, R273: construction is power-on: every field at its reset value but `H.reset_done` = 0, so that a RESET then gives
the state that any RESET of the same parameters gives; this hardware's parameters, and every other value of a parameter's domain,
are accepted and carried by the instance, with either value of P_NMI_PRESENT, P_ODD_FRAME_SKIP, P_PRERENDER_TICKS and P_EXT_IRQ
and every P_A12_LOW_MIN and P_RESET_S among them; a parameter out of its domain, an unsupported mapper, a missing or a malformed
image makes no instance (the domains and the order: logs 11 and 15). -/
def Obligations.ConstructionIsPowerOn : Prop :=
  ∀ (p : Parameters) (c : Cartridge) (image : Memory) (x : External) (id : Nat) (m : Option Memory),
    (∀ (skip prerender ext nmi : Bool) (low : Nat) (sp : Byte), Parameters.valid { Config.parameters with
      oddFrameSkip := skip, prerenderTicks := prerender, extIrq := ext, nmiPresent := nmi, a12LowMin := low, resetS := sp } = true) ∧
    (p.toFixedParameters ≠ Config.fixedParameters → p.valid = false) ∧
    (p.valid = false → construct p c x = .error (.parameterOutOfDomain p)) ∧
    (p.valid = true →
      construct p { variant := .other id, prg := m } x = .error (.unsupportedMapper id) ∧
      construct p { variant := .mmc3, prg := none } x = .error .missingPrg ∧
      (Memory.wf 0x8000 0x10000 image = false →
        construct p { variant := .mmc3, prg := some image } x = .error .malformedPrg) ∧
      (Memory.wf 0x8000 0x10000 image = true → ∃ s t,
        construct p { variant := .mmc3, prg := some image } x = .ok s ∧ exec .hostReset s = .next t ∧
        condition s = .constructed ∧ legalState s = true ∧
        sameParameters { State.reset with ext := x, prg := image, params := p.toSettings } s ∧
        s = { t with host := { t.host with resetDone := false } }))

/-- R101, R232, R233, R106: in Running, STEP takes the input's low 8 bits as the joypad byte and always completes from a legal
position, within 29781 CPU cycles: at the end of dot P_STEP_END_POS (or up to two dots past it; the first dot of vertical blank on
this hardware) with the frame copied and returned, or, with the frame as it was, refused (only without `cpu_exec`) or at a PPU
address too wide (only a full PPU's on 16 lines). Begun as a waiting command, it reaches exactly that state by the machine's own
steps. Constructed or Closed, it answers and does nothing; Faulted is FaultIsSticky's. (The model: logs 1, 2 and 9.) -/
def Obligations.StepRunsOneFrame : Prop :=
  ∀ (input : Nat) (s : State),
    (s.host.closed = true →
      exec (.hostStep input) s = .next { s with host := { s.host with reply := .fault (.closed .step) } }) ∧
    (s.host.closed = false → s.host.resetDone = false →
      exec (.hostStep input) s = .next { s with host := { s.host with reply := .fault (.notReset .step) } }) ∧
    (s.host.closed = false → s.host.resetDone = true → s.host.fault = none → s.sched.line ≤ 261 → s.sched.dot ≤ 340 →
      s.params.valid = true → ∃ t,
      exec (.hostStep input) s = .next t ∧ t.sched.joypad.toNat = input % 256 ∧ t.host.inStep = false ∧
      t.sched.cpuCycles ≤ s.sched.cpuCycles + 29781 ∧
      (s.host.inStep = false → s.host.inbox = [] → ∃ n,
        steps n { s with host := { s.host with inbox := [.host (.step input)] } } = some t) ∧
      ((t.host.fault = none ∧ t.sched.frameDone = true ∧
          (s.params.stepEndDot ≤ 336 → t.sched.line = s.params.stepEndLine ∧
            s.params.stepEndDot + 1 ≤ t.sched.dot ∧ t.sched.dot ≤ s.params.stepEndDot + 3) ∧
          t.host.frame = t.host.fb ∧ t.host.reply = .frame t.host.fb) ∨
        (s.ext.cpuExec = false ∧ t.host.frame = s.host.frame ∧
          ∃ a op, t.host.fault = some (.unmodelledOpcode a op) ∧ t.host.reply = .refused (.unmodelledOpcode a op)) ∨
        (s.ext.fullPpu = true ∧ s.ext.widePpu = true ∧ t.host.frame = s.host.frame ∧
          ∃ w l d, t.host.fault = some (.ppuAddrWidth w l d) ∧ t.host.reply = .fault (.ppuAddrWidth w l d))))

/-- R110: with P_STEP_END_POS at this hardware's (241, 1), a frame that begins at (261, 0) with the parity clear, as the first one
after reset does, takes 27508 CPU cycles and leaves the position at (241, 2); a frame that begins where one ended takes 29780 or
29781; unless a refusal or fault ends it on the way, which cannot happen with `cpu_exec` and a PPU of 14 address lines. -/
def Obligations.FramesTakeTheirCpuCycles : Prop :=
  ∀ (input : Nat) (s : State), s.host.closed = false → s.host.resetDone = true → s.host.fault = none →
    s.params.stepEndLine = 241 → s.params.stepEndDot = 1 →
    (s.sched.line = 261 → s.sched.dot = 0 → s.sched.oddFrame = false → ∃ t,
      exec (.hostStep input) s = .next t ∧ (s.ext.cpuExec = true → unstopped s = true → t.host.fault = none) ∧
      (t.host.fault = none → t.sched.cpuCycles = s.sched.cpuCycles + 27508 ∧ t.sched.line = 241 ∧ t.sched.dot = 2)) ∧
    (s.sched.line = 241 → 2 ≤ s.sched.dot → s.sched.dot ≤ 4 → ∃ t,
      exec (.hostStep input) s = .next t ∧ (s.ext.cpuExec = true → unstopped s = true → t.host.fault = none) ∧
      (t.host.fault = none →
        t.sched.cpuCycles = s.sched.cpuCycles + 29780 ∨ t.sched.cpuCycles = s.sched.cpuCycles + 29781))

/-- R235: BUS_WRITE is a CPU write in no time when Running; an argument out of range is a recorded fault and writes nothing;
in every other condition it answers and does nothing. (The model: log 1.) -/
def Obligations.BusWriteCommand : Prop :=
  ∀ (addr value : Nat) (s : State),
    (s.host.closed = true →
      exec (.hostBusWrite addr value) s =
        .next { s with host := { s.host with reply := .fault (.closed .busWrite) } }) ∧
    (s.host.closed = false → s.host.resetDone = false →
      exec (.hostBusWrite addr value) s =
        .next { s with host := { s.host with reply := .fault (.notReset .busWrite) } }) ∧
    (s.host.closed = false → s.host.resetDone = true → s.host.fault = none →
      (0xFFFF < addr → exec (.hostBusWrite addr value) s = .next { s with host := { s.host with
        fault := some (.addrOutOfRange addr), reply := .fault (.addrOutOfRange addr) } }) ∧
      (addr ≤ 0xFFFF → 0xFF < value → exec (.hostBusWrite addr value) s = .next { s with host := { s.host with
        fault := some (.valueOutOfRange value), reply := .fault (.valueOutOfRange value) } }) ∧
      (addr ≤ 0xFFFF → value ≤ 0xFF → ∃ t, exec (.hostBusWrite addr value) s = .next t ∧
        t = { memWrite s (BitVec.ofNat 16 addr) (BitVec.ofNat 8 value) with host := { s.host with reply := .done } }))

/-- R251, R237, R250: while a fault or refusal stands, STEP and BUS_WRITE return fault(H.fault) and change nothing, READ_FRAME
returns the last frame, RESET clears it, and no command that takes scheduler time performs a dot or a CPU action. (The model: logs
1 and 17.) -/
def Obligations.FaultIsSticky : Prop :=
  ∀ (input addr value : Nat) (r : FaultReason) (s : State), s.host.fault = some r →
    (s.host.closed = false → s.host.resetDone = true →
      exec (.hostStep input) s = .next { s with host := { s.host with reply := .fault r } } ∧
      exec (.hostBusWrite addr value) s = .next { s with host := { s.host with reply := .fault r } } ∧
      exec .hostReadFrame s = .next { s with host := { s.host with reply := .frame s.host.frame } } ∧
      (∃ t, exec .hostReset s = .next t ∧ t.host.fault = none)) ∧
    (∀ i, takesTime i = true → exec i s = .next s)

/-- R234, R236, R237: READ_FRAME returns the frame in every condition but Closed and changes nothing; CLOSE always succeeds,
sets `H.closed` and nothing else, and a second one changes nothing; after it READ_FRAME answers fault(closed). (The model: log
1.) -/
def Obligations.ReadFrameAndClose : Prop :=
  ∀ s : State,
    (s.host.closed = false →
      exec .hostReadFrame s = .next { s with host := { s.host with reply := .frame s.host.frame } }) ∧
    (s.host.closed = true →
      exec .hostReadFrame s = .next { s with host := { s.host with reply := .fault (.closed .readFrame) } }) ∧
    exec .hostClose s = .next { s with host := { s.host with closed := true, reply := .done } }

/-- R40, R234: nothing but STEP and RESET changes the frame the host reads. -/
def Obligations.FrameIsStableBetweenSteps : Prop :=
  ∀ (i : Instr) (s t : State), (∀ input, i ≠ .hostStep input) → i ≠ .hostReset → exec i s = .next t →
    t.host.frame = s.host.frame

/-! ## The step, and what every step keeps -/

/-- R67, R93, R107, R263 (log 2): outside a STEP a step executes the oldest waiting host command or TICK whole, but begins a STEP
in Running; nothing else acts there, and with nothing waiting nothing happens. Inside a STEP it executes a stimulus of the STEP's
own that comes first, and else performs the frame's next operation, whatever the host has waiting; the STEP ends where its frame
is done or a fault was raised. -/
def Obligations.StepTakesTheOldestStimulus : Prop :=
  ∀ (x : Stimulus) (rest : List Stimulus) (i : Instr) (s : State),
    let u : State := { s with host := { s.host with inbox := rest } }
    (s.host.inStep = false →
      (s.host.inbox = [] → step s = .next s) ∧
      (s.host.inbox = x :: rest → internalStimulus x = true → step s = .next u) ∧
      (s.host.inbox = x :: rest → internalStimulus x = false → decodeStimulus x = .ok i → step s =
        match x with
        | .host (.step input) =>
          if condition s = .running then .next { u with
            sched := { s.sched with joypad := BitVec.ofNat 8 input, frameDone := false }
            host := { u.host with inStep := true } }
          else exec i u
        | _ => exec i u)) ∧
    (s.host.inStep = true →
      (∀ t, s.host.inbox = x :: rest → internalStimulus x = true → decodeStimulus x = .ok i → exec i u = .next t →
        step s = .next (settle t)) ∧
      (s.host.inbox = [] ∨ (s.host.inbox = x :: rest ∧ internalStimulus x = false) →
        step s = .next (settle (frameOperation s))))

/-- R160, R162, R168, R180 (log 2): inside a STEP, with nothing waiting, at a boundary where the arbiter will choose an
instruction, if the bytes at `C.PC` lie in RAM or PRG and decode to the instruction i, the step is exec of i, with the end of a
STEP that a fault of it brings; where it will choose the IRQ, the step is the IRQ service; where it will choose the NMI, the step
takes it, with what the NMI service gives the CPU and RAM and the request cleared. All this as long as the frame does not end on
the way. -/
def Obligations.StepRunsTheDecodedInstruction : Prop :=
  ∀ s : State, s.host.inStep = true → s.host.inbox = [] → s.cpu.op = .none →
    (∀ (n : Nat) (i : Instr) (t : State), (boundary (threeDots s)).cpu.op = .fetch → inMemory s.cpu.pc n = true →
      decodeOp (bytesAt s s.cpu.pc n) = .ok (i, []) → exec i s = .next t → t.sched.frameDone = false →
      step s = .next (settle t)) ∧
    (∀ k lo t, (boundary (threeDots s)).cpu.op = .irqSeq k lo → exec .irqService s = .next t →
      t.sched.frameDone = false → step s = .next (settle t)) ∧
    (∀ k lo, (boundary (threeDots s)).cpu.op = .nmiSeq k lo → unstopped s = true →
      (dots 21 s).sched.frameDone = false → ∃ t, step s = .next t ∧
        t.cpu = { s.cpu with
          pc := prgRead s 0xFFFB ++ prgRead s 0xFFFA, s := s.cpu.s - 3, p := s.cpu.p ||| 0x04, op := .none } ∧
        t.ram = stackFrame s.ram s.cpu.s s.cpu.pc ((s.cpu.p &&& 0xCF) ||| 0x20) ∧
        t.bus.openBus = prgRead s 0xFFFB ∧ passes 7 s t ∧
        (inMemory s.cpu.pc 1 = true →
          t.arb = (dots 18 { dots 3 s with arb := { (dots 3 s).arb with nmiPending := false } }).arb))

/-- R4, R27, R29, R35, R37, R38, R40: every step keeps a legal state legal: the position in the frame, the low-run count at most
P_A12_LOW_MIN, bits 5 and 4 of the status clear, the operation's cycle within it, RAM, PRG and both frame buffers in canonical
form, a STEP in progress only in Running with its frame not done (the model's field, log 2), and the parameters in their domains.
-/
def Obligations.StepKeepsLegalStates : Prop :=
  ∀ s t : State, legalState s = true → step s = .next t → legalState t = true

/-- R41: no command of any kind changes a parameter of the instance: the PRG image, the P_ parameters, or which collaborators there
are. -/
def Obligations.ParametersNeverChange : Prop :=
  ∀ (i : Instr) (s t : State), exec i s = .next t → sameParameters s t

/-- R270: the state after reset is legal (a tier 1 companion of StepKeepsLegalStates). -/
def Obligations.ResetIsLegal : Prop :=
  legalState State.reset = true ∧ condition State.reset = .running
end

