-- ==== Sys2Proof/Laws/Memory.lean ====
section
/-! SUPPORT. The laws of the sparse lists that hold RAM, PRG and the frame buffers: read after write, and the canonical form that
every write keeps. -/

namespace Sys2Proof.Machine

variable {w : Nat}

/-- The canonical form bounds every key from below, so a smaller key is not listed. -/
theorem sparseRead_below (m : List (Nat × BitVec w)) (hi lo key : Nat) (h : sparseWf hi lo m = true) (hk : key < lo) :
    sparseRead m key = 0#w := by
  induction m generalizing lo with
  | nil => rfl
  | cons kv rest ih =>
    obtain ⟨k, v⟩ := kv
    simp only [sparseWf, Bool.and_eq_true, decide_eq_true_eq] at h
    have hne : key ≠ k := by omega
    simp only [sparseRead, if_neg hne]
    exact ih (k + 1) h.2 (by omega)

/-- A write is read back at its key (R63). -/
theorem sparseRead_write_same (m : List (Nat × BitVec w)) (hi lo key : Nat) (x : BitVec w) (h : sparseWf hi lo m = true) :
    sparseRead (sparseWrite m key x) key = x := by
  induction m generalizing lo with
  | nil => by_cases hx : x = 0#w <;> simp [sparseWrite, sparseRead, hx]
  | cons kv rest ih =>
    obtain ⟨k, v⟩ := kv
    simp only [sparseWf, Bool.and_eq_true, decide_eq_true_eq] at h
    rcases Nat.lt_trichotomy key k with hlt | heq | hgt
    · by_cases hx : x = 0#w
      · simp only [sparseWrite, if_pos hlt, if_pos hx, sparseRead, if_neg (Nat.ne_of_lt hlt)]
        rw [hx]
        exact sparseRead_below rest hi (k + 1) key h.2 (by omega)
      · simp [sparseWrite, hlt, hx, sparseRead]
    · subst heq
      by_cases hx : x = 0#w
      · simp only [sparseWrite, Nat.lt_irrefl, if_false, if_true, hx]
        exact sparseRead_below rest hi (key + 1) key h.2 (by omega)
      · simp [sparseWrite, hx, sparseRead]
    · have h1 : ¬key < k := by omega
      have h2 : key ≠ k := by omega
      simp only [sparseWrite, if_neg h1, if_neg h2, sparseRead]
      exact ih (k + 1) h.2

/-- A write leaves every other key as it was (R63). -/
theorem sparseRead_write_other (m : List (Nat × BitVec w)) (key other : Nat) (x : BitVec w) (h : other ≠ key) :
    sparseRead (sparseWrite m key x) other = sparseRead m other := by
  induction m with
  | nil => by_cases hx : x = 0#w <;> simp [sparseWrite, sparseRead, hx, h]
  | cons kv rest ih =>
    obtain ⟨k, v⟩ := kv
    simp only [sparseWrite]
    split
    · split <;> simp [sparseRead, h]
    · split
      · rename_i heq
        subst heq
        split <;> simp [sparseRead, h]
      · simp [sparseRead, ih]

/-- A write keeps the canonical form. -/
theorem sparseWrite_wf (m : List (Nat × BitVec w)) (hi lo key : Nat) (x : BitVec w) (h : sparseWf hi lo m = true)
    (hlo : lo ≤ key) (hhi : key < hi) : sparseWf hi lo (sparseWrite m key x) = true := by
  induction m generalizing lo with
  | nil => by_cases hx : x = 0#w <;> simp [sparseWrite, sparseWf, hx, hlo, hhi]
  | cons kv rest ih =>
    obtain ⟨k, v⟩ := kv
    simp only [sparseWf, Bool.and_eq_true, decide_eq_true_eq] at h
    obtain ⟨⟨h1, h2, h3⟩, h4⟩ := h
    rcases Nat.lt_trichotomy key k with hlt | heq | hgt
    · by_cases hx : x = 0#w
      · simp [sparseWrite, hlt, hx, sparseWf, h1, h2, h3, h4]
      · simp [sparseWrite, hlt, hx, sparseWf, h2, h3, h4, hlo, hhi, Nat.succ_le_of_lt hlt]
    · subst heq
      by_cases hx : x = 0#w
      · simp only [sparseWrite, Nat.lt_irrefl, if_false, if_true, hx]
        clear ih
        cases rest with
        | nil => rfl
        | cons kv' rest' =>
          simp only [sparseWf, Bool.and_eq_true, decide_eq_true_eq] at h4 ⊢
          exact ⟨⟨by omega, h4.1.2⟩, h4.2⟩
      · simp [sparseWrite, hx, sparseWf, h1, h2, h4]
    · have n1 : ¬key < k := by omega
      have n2 : key ≠ k := by omega
      simp only [sparseWrite, if_neg n1, if_neg n2, sparseWf, Bool.and_eq_true, decide_eq_true_eq]
      exact ⟨⟨h1, h2, h3⟩, ih (k + 1) h4 (by omega)⟩

/-- Writing a list of pixels keeps the frame buffer's form (R40). -/
theorem writePixels_wf (fb : FrameBuf) (ps : List (Nat × BitVec 6)) (h : FrameBuf.wf fb = true) :
    FrameBuf.wf (writePixels fb ps) = true := by
  induction ps generalizing fb with
  | nil => exact h
  | cons p rest ih =>
    simp only [writePixels, List.foldl_cons]
    split
    · exact ih _ (sparseWrite_wf fb 61440 0 p.1 p.2 h (Nat.zero_le _) (by simpa [Config.fbWidth, Config.fbHeight] using ‹_›))
    · exact ih _ h

/-- RAM's form is kept by every RAM write (R54, R141). -/
theorem ramStore_wf (s : State) (a : Addr) (v : Byte) (h : Memory.wf 0 2048 s.ram = true) :
    Memory.wf 0 2048 (ramStore s a v).ram = true :=
  sparseWrite_wf s.ram 2048 0 _ v h (Nat.zero_le _) (Nat.mod_lt _ (by decide))

end Sys2Proof.Machine
end

