-- ==== Sys2Proof/Laws/State.lean ====
section
/-! SUPPORT. What each register update leaves in each field: one lemma per field per update, by rfl. -/

namespace Sys2Proof.Machine

@[simp] theorem setOpenBus_mapper (s : State) (v : Byte) : (setOpenBus s v).mapper = s.mapper := rfl
@[simp] theorem setOpenBus_edge (s : State) (v : Byte) : (setOpenBus s v).edge = s.edge := rfl
@[simp] theorem setOpenBus_arb (s : State) (v : Byte) : (setOpenBus s v).arb = s.arb := rfl
@[simp] theorem setOpenBus_sched (s : State) (v : Byte) : (setOpenBus s v).sched = s.sched := rfl
@[simp] theorem setOpenBus_bus_openBus (s : State) (v : Byte) : (setOpenBus s v).bus.openBus = v := rfl
@[simp] theorem setOpenBus_cpu (s : State) (v : Byte) : (setOpenBus s v).cpu = s.cpu := rfl
@[simp] theorem setOpenBus_ppu (s : State) (v : Byte) : (setOpenBus s v).ppu = s.ppu := rfl
@[simp] theorem setOpenBus_host (s : State) (v : Byte) : (setOpenBus s v).host = s.host := rfl
@[simp] theorem setOpenBus_ext (s : State) (v : Byte) : (setOpenBus s v).ext = s.ext := rfl
@[simp] theorem setOpenBus_ram (s : State) (v : Byte) : (setOpenBus s v).ram = s.ram := rfl
@[simp] theorem setOpenBus_prg (s : State) (v : Byte) : (setOpenBus s v).prg = s.prg := rfl
@[simp] theorem setOpenBus_params (s : State) (v : Byte) : (setOpenBus s v).params = s.params := rfl

@[simp] theorem setPc_mapper (s : State) (v : Addr) : (setPc s v).mapper = s.mapper := rfl
@[simp] theorem setPc_edge (s : State) (v : Addr) : (setPc s v).edge = s.edge := rfl
@[simp] theorem setPc_arb (s : State) (v : Addr) : (setPc s v).arb = s.arb := rfl
@[simp] theorem setPc_sched (s : State) (v : Addr) : (setPc s v).sched = s.sched := rfl
@[simp] theorem setPc_bus (s : State) (v : Addr) : (setPc s v).bus = s.bus := rfl
@[simp] theorem setPc_cpu_pc (s : State) (v : Addr) : (setPc s v).cpu.pc = v := rfl
@[simp] theorem setPc_cpu_s (s : State) (v : Addr) : (setPc s v).cpu.s = s.cpu.s := rfl
@[simp] theorem setPc_cpu_p (s : State) (v : Addr) : (setPc s v).cpu.p = s.cpu.p := rfl
@[simp] theorem setPc_cpu_a (s : State) (v : Addr) : (setPc s v).cpu.a = s.cpu.a := rfl
@[simp] theorem setPc_cpu_op (s : State) (v : Addr) : (setPc s v).cpu.op = s.cpu.op := rfl
@[simp] theorem setPc_cpu_dmaPending (s : State) (v : Addr) : (setPc s v).cpu.dmaPending = s.cpu.dmaPending := rfl
@[simp] theorem setPc_ppu (s : State) (v : Addr) : (setPc s v).ppu = s.ppu := rfl
@[simp] theorem setPc_host (s : State) (v : Addr) : (setPc s v).host = s.host := rfl
@[simp] theorem setPc_ext (s : State) (v : Addr) : (setPc s v).ext = s.ext := rfl
@[simp] theorem setPc_ram (s : State) (v : Addr) : (setPc s v).ram = s.ram := rfl
@[simp] theorem setPc_prg (s : State) (v : Addr) : (setPc s v).prg = s.prg := rfl
@[simp] theorem setPc_params (s : State) (v : Addr) : (setPc s v).params = s.params := rfl

@[simp] theorem setS_mapper (s : State) (v : Byte) : (setS s v).mapper = s.mapper := rfl
@[simp] theorem setS_edge (s : State) (v : Byte) : (setS s v).edge = s.edge := rfl
@[simp] theorem setS_arb (s : State) (v : Byte) : (setS s v).arb = s.arb := rfl
@[simp] theorem setS_sched (s : State) (v : Byte) : (setS s v).sched = s.sched := rfl
@[simp] theorem setS_bus (s : State) (v : Byte) : (setS s v).bus = s.bus := rfl
@[simp] theorem setS_cpu_pc (s : State) (v : Byte) : (setS s v).cpu.pc = s.cpu.pc := rfl
@[simp] theorem setS_cpu_s (s : State) (v : Byte) : (setS s v).cpu.s = v := rfl
@[simp] theorem setS_cpu_p (s : State) (v : Byte) : (setS s v).cpu.p = s.cpu.p := rfl
@[simp] theorem setS_cpu_a (s : State) (v : Byte) : (setS s v).cpu.a = s.cpu.a := rfl
@[simp] theorem setS_cpu_op (s : State) (v : Byte) : (setS s v).cpu.op = s.cpu.op := rfl
@[simp] theorem setS_cpu_dmaPending (s : State) (v : Byte) : (setS s v).cpu.dmaPending = s.cpu.dmaPending := rfl
@[simp] theorem setS_ppu (s : State) (v : Byte) : (setS s v).ppu = s.ppu := rfl
@[simp] theorem setS_host (s : State) (v : Byte) : (setS s v).host = s.host := rfl
@[simp] theorem setS_ext (s : State) (v : Byte) : (setS s v).ext = s.ext := rfl
@[simp] theorem setS_ram (s : State) (v : Byte) : (setS s v).ram = s.ram := rfl
@[simp] theorem setS_prg (s : State) (v : Byte) : (setS s v).prg = s.prg := rfl
@[simp] theorem setS_params (s : State) (v : Byte) : (setS s v).params = s.params := rfl

@[simp] theorem setP_mapper (s : State) (v : Byte) : (setP s v).mapper = s.mapper := rfl
@[simp] theorem setP_edge (s : State) (v : Byte) : (setP s v).edge = s.edge := rfl
@[simp] theorem setP_arb (s : State) (v : Byte) : (setP s v).arb = s.arb := rfl
@[simp] theorem setP_sched (s : State) (v : Byte) : (setP s v).sched = s.sched := rfl
@[simp] theorem setP_bus (s : State) (v : Byte) : (setP s v).bus = s.bus := rfl
@[simp] theorem setP_cpu_pc (s : State) (v : Byte) : (setP s v).cpu.pc = s.cpu.pc := rfl
@[simp] theorem setP_cpu_s (s : State) (v : Byte) : (setP s v).cpu.s = s.cpu.s := rfl
@[simp] theorem setP_cpu_p (s : State) (v : Byte) : (setP s v).cpu.p = v := rfl
@[simp] theorem setP_cpu_a (s : State) (v : Byte) : (setP s v).cpu.a = s.cpu.a := rfl
@[simp] theorem setP_cpu_op (s : State) (v : Byte) : (setP s v).cpu.op = s.cpu.op := rfl
@[simp] theorem setP_cpu_dmaPending (s : State) (v : Byte) : (setP s v).cpu.dmaPending = s.cpu.dmaPending := rfl
@[simp] theorem setP_ppu (s : State) (v : Byte) : (setP s v).ppu = s.ppu := rfl
@[simp] theorem setP_host (s : State) (v : Byte) : (setP s v).host = s.host := rfl
@[simp] theorem setP_ext (s : State) (v : Byte) : (setP s v).ext = s.ext := rfl
@[simp] theorem setP_ram (s : State) (v : Byte) : (setP s v).ram = s.ram := rfl
@[simp] theorem setP_prg (s : State) (v : Byte) : (setP s v).prg = s.prg := rfl
@[simp] theorem setP_params (s : State) (v : Byte) : (setP s v).params = s.params := rfl

@[simp] theorem setA_mapper (s : State) (v : Byte) : (setA s v).mapper = s.mapper := rfl
@[simp] theorem setA_edge (s : State) (v : Byte) : (setA s v).edge = s.edge := rfl
@[simp] theorem setA_arb (s : State) (v : Byte) : (setA s v).arb = s.arb := rfl
@[simp] theorem setA_sched (s : State) (v : Byte) : (setA s v).sched = s.sched := rfl
@[simp] theorem setA_bus (s : State) (v : Byte) : (setA s v).bus = s.bus := rfl
@[simp] theorem setA_cpu_pc (s : State) (v : Byte) : (setA s v).cpu.pc = s.cpu.pc := rfl
@[simp] theorem setA_cpu_s (s : State) (v : Byte) : (setA s v).cpu.s = s.cpu.s := rfl
@[simp] theorem setA_cpu_p (s : State) (v : Byte) : (setA s v).cpu.p = s.cpu.p := rfl
@[simp] theorem setA_cpu_a (s : State) (v : Byte) : (setA s v).cpu.a = v := rfl
@[simp] theorem setA_cpu_op (s : State) (v : Byte) : (setA s v).cpu.op = s.cpu.op := rfl
@[simp] theorem setA_cpu_dmaPending (s : State) (v : Byte) : (setA s v).cpu.dmaPending = s.cpu.dmaPending := rfl
@[simp] theorem setA_ppu (s : State) (v : Byte) : (setA s v).ppu = s.ppu := rfl
@[simp] theorem setA_host (s : State) (v : Byte) : (setA s v).host = s.host := rfl
@[simp] theorem setA_ext (s : State) (v : Byte) : (setA s v).ext = s.ext := rfl
@[simp] theorem setA_ram (s : State) (v : Byte) : (setA s v).ram = s.ram := rfl
@[simp] theorem setA_prg (s : State) (v : Byte) : (setA s v).prg = s.prg := rfl
@[simp] theorem setA_params (s : State) (v : Byte) : (setA s v).params = s.params := rfl

@[simp] theorem setOp_mapper (s : State) (v : Op) : (setOp s v).mapper = s.mapper := rfl
@[simp] theorem setOp_edge (s : State) (v : Op) : (setOp s v).edge = s.edge := rfl
@[simp] theorem setOp_arb (s : State) (v : Op) : (setOp s v).arb = s.arb := rfl
@[simp] theorem setOp_sched (s : State) (v : Op) : (setOp s v).sched = s.sched := rfl
@[simp] theorem setOp_bus (s : State) (v : Op) : (setOp s v).bus = s.bus := rfl
@[simp] theorem setOp_cpu_pc (s : State) (v : Op) : (setOp s v).cpu.pc = s.cpu.pc := rfl
@[simp] theorem setOp_cpu_s (s : State) (v : Op) : (setOp s v).cpu.s = s.cpu.s := rfl
@[simp] theorem setOp_cpu_p (s : State) (v : Op) : (setOp s v).cpu.p = s.cpu.p := rfl
@[simp] theorem setOp_cpu_a (s : State) (v : Op) : (setOp s v).cpu.a = s.cpu.a := rfl
@[simp] theorem setOp_cpu_op (s : State) (v : Op) : (setOp s v).cpu.op = v := rfl
@[simp] theorem setOp_cpu_dmaPending (s : State) (v : Op) : (setOp s v).cpu.dmaPending = s.cpu.dmaPending := rfl
@[simp] theorem setOp_ppu (s : State) (v : Op) : (setOp s v).ppu = s.ppu := rfl
@[simp] theorem setOp_host (s : State) (v : Op) : (setOp s v).host = s.host := rfl
@[simp] theorem setOp_ext (s : State) (v : Op) : (setOp s v).ext = s.ext := rfl
@[simp] theorem setOp_ram (s : State) (v : Op) : (setOp s v).ram = s.ram := rfl
@[simp] theorem setOp_prg (s : State) (v : Op) : (setOp s v).prg = s.prg := rfl
@[simp] theorem setOp_params (s : State) (v : Op) : (setOp s v).params = s.params := rfl

@[simp] theorem setDma_mapper (s : State) (v : Option Byte) : (setDma s v).mapper = s.mapper := rfl
@[simp] theorem setDma_edge (s : State) (v : Option Byte) : (setDma s v).edge = s.edge := rfl
@[simp] theorem setDma_arb (s : State) (v : Option Byte) : (setDma s v).arb = s.arb := rfl
@[simp] theorem setDma_sched (s : State) (v : Option Byte) : (setDma s v).sched = s.sched := rfl
@[simp] theorem setDma_bus (s : State) (v : Option Byte) : (setDma s v).bus = s.bus := rfl
@[simp] theorem setDma_cpu_pc (s : State) (v : Option Byte) : (setDma s v).cpu.pc = s.cpu.pc := rfl
@[simp] theorem setDma_cpu_s (s : State) (v : Option Byte) : (setDma s v).cpu.s = s.cpu.s := rfl
@[simp] theorem setDma_cpu_p (s : State) (v : Option Byte) : (setDma s v).cpu.p = s.cpu.p := rfl
@[simp] theorem setDma_cpu_a (s : State) (v : Option Byte) : (setDma s v).cpu.a = s.cpu.a := rfl
@[simp] theorem setDma_cpu_op (s : State) (v : Option Byte) : (setDma s v).cpu.op = s.cpu.op := rfl
@[simp] theorem setDma_cpu_dmaPending (s : State) (v : Option Byte) : (setDma s v).cpu.dmaPending = v := rfl
@[simp] theorem setDma_ppu (s : State) (v : Option Byte) : (setDma s v).ppu = s.ppu := rfl
@[simp] theorem setDma_host (s : State) (v : Option Byte) : (setDma s v).host = s.host := rfl
@[simp] theorem setDma_ext (s : State) (v : Option Byte) : (setDma s v).ext = s.ext := rfl
@[simp] theorem setDma_ram (s : State) (v : Option Byte) : (setDma s v).ram = s.ram := rfl
@[simp] theorem setDma_prg (s : State) (v : Option Byte) : (setDma s v).prg = s.prg := rfl
@[simp] theorem setDma_params (s : State) (v : Option Byte) : (setDma s v).params = s.params := rfl

@[simp] theorem setMapper_mapper (s : State) (v : Mapper) : (setMapper s v).mapper = v := rfl
@[simp] theorem setMapper_edge (s : State) (v : Mapper) : (setMapper s v).edge = s.edge := rfl
@[simp] theorem setMapper_arb (s : State) (v : Mapper) : (setMapper s v).arb = s.arb := rfl
@[simp] theorem setMapper_sched (s : State) (v : Mapper) : (setMapper s v).sched = s.sched := rfl
@[simp] theorem setMapper_bus (s : State) (v : Mapper) : (setMapper s v).bus = s.bus := rfl
@[simp] theorem setMapper_cpu (s : State) (v : Mapper) : (setMapper s v).cpu = s.cpu := rfl
@[simp] theorem setMapper_ppu (s : State) (v : Mapper) : (setMapper s v).ppu = s.ppu := rfl
@[simp] theorem setMapper_host (s : State) (v : Mapper) : (setMapper s v).host = s.host := rfl
@[simp] theorem setMapper_ext (s : State) (v : Mapper) : (setMapper s v).ext = s.ext := rfl
@[simp] theorem setMapper_ram (s : State) (v : Mapper) : (setMapper s v).ram = s.ram := rfl
@[simp] theorem setMapper_prg (s : State) (v : Mapper) : (setMapper s v).prg = s.prg := rfl
@[simp] theorem setMapper_params (s : State) (v : Mapper) : (setMapper s v).params = s.params := rfl

@[simp] theorem setEdge_mapper (s : State) (v : Edge) : (setEdge s v).mapper = s.mapper := rfl
@[simp] theorem setEdge_edge (s : State) (v : Edge) : (setEdge s v).edge = v := rfl
@[simp] theorem setEdge_arb (s : State) (v : Edge) : (setEdge s v).arb = s.arb := rfl
@[simp] theorem setEdge_sched (s : State) (v : Edge) : (setEdge s v).sched = s.sched := rfl
@[simp] theorem setEdge_bus (s : State) (v : Edge) : (setEdge s v).bus = s.bus := rfl
@[simp] theorem setEdge_cpu (s : State) (v : Edge) : (setEdge s v).cpu = s.cpu := rfl
@[simp] theorem setEdge_ppu (s : State) (v : Edge) : (setEdge s v).ppu = s.ppu := rfl
@[simp] theorem setEdge_host (s : State) (v : Edge) : (setEdge s v).host = s.host := rfl
@[simp] theorem setEdge_ext (s : State) (v : Edge) : (setEdge s v).ext = s.ext := rfl
@[simp] theorem setEdge_ram (s : State) (v : Edge) : (setEdge s v).ram = s.ram := rfl
@[simp] theorem setEdge_prg (s : State) (v : Edge) : (setEdge s v).prg = s.prg := rfl
@[simp] theorem setEdge_params (s : State) (v : Edge) : (setEdge s v).params = s.params := rfl

@[simp] theorem setArb_mapper (s : State) (v : Arbiter) : (setArb s v).mapper = s.mapper := rfl
@[simp] theorem setArb_edge (s : State) (v : Arbiter) : (setArb s v).edge = s.edge := rfl
@[simp] theorem setArb_arb (s : State) (v : Arbiter) : (setArb s v).arb = v := rfl
@[simp] theorem setArb_sched (s : State) (v : Arbiter) : (setArb s v).sched = s.sched := rfl
@[simp] theorem setArb_bus (s : State) (v : Arbiter) : (setArb s v).bus = s.bus := rfl
@[simp] theorem setArb_cpu (s : State) (v : Arbiter) : (setArb s v).cpu = s.cpu := rfl
@[simp] theorem setArb_ppu (s : State) (v : Arbiter) : (setArb s v).ppu = s.ppu := rfl
@[simp] theorem setArb_host (s : State) (v : Arbiter) : (setArb s v).host = s.host := rfl
@[simp] theorem setArb_ext (s : State) (v : Arbiter) : (setArb s v).ext = s.ext := rfl
@[simp] theorem setArb_ram (s : State) (v : Arbiter) : (setArb s v).ram = s.ram := rfl
@[simp] theorem setArb_prg (s : State) (v : Arbiter) : (setArb s v).prg = s.prg := rfl
@[simp] theorem setArb_params (s : State) (v : Arbiter) : (setArb s v).params = s.params := rfl

@[simp] theorem setSched_mapper (s : State) (v : Scheduler) : (setSched s v).mapper = s.mapper := rfl
@[simp] theorem setSched_edge (s : State) (v : Scheduler) : (setSched s v).edge = s.edge := rfl
@[simp] theorem setSched_arb (s : State) (v : Scheduler) : (setSched s v).arb = s.arb := rfl
@[simp] theorem setSched_sched (s : State) (v : Scheduler) : (setSched s v).sched = v := rfl
@[simp] theorem setSched_bus (s : State) (v : Scheduler) : (setSched s v).bus = s.bus := rfl
@[simp] theorem setSched_cpu (s : State) (v : Scheduler) : (setSched s v).cpu = s.cpu := rfl
@[simp] theorem setSched_ppu (s : State) (v : Scheduler) : (setSched s v).ppu = s.ppu := rfl
@[simp] theorem setSched_host (s : State) (v : Scheduler) : (setSched s v).host = s.host := rfl
@[simp] theorem setSched_ext (s : State) (v : Scheduler) : (setSched s v).ext = s.ext := rfl
@[simp] theorem setSched_ram (s : State) (v : Scheduler) : (setSched s v).ram = s.ram := rfl
@[simp] theorem setSched_prg (s : State) (v : Scheduler) : (setSched s v).prg = s.prg := rfl
@[simp] theorem setSched_params (s : State) (v : Scheduler) : (setSched s v).params = s.params := rfl

@[simp] theorem setCtrl_mapper (s : State) (v : Byte) : (setCtrl s v).mapper = s.mapper := rfl
@[simp] theorem setCtrl_edge (s : State) (v : Byte) : (setCtrl s v).edge = s.edge := rfl
@[simp] theorem setCtrl_arb (s : State) (v : Byte) : (setCtrl s v).arb = s.arb := rfl
@[simp] theorem setCtrl_sched (s : State) (v : Byte) : (setCtrl s v).sched = s.sched := rfl
@[simp] theorem setCtrl_bus (s : State) (v : Byte) : (setCtrl s v).bus = s.bus := rfl
@[simp] theorem setCtrl_cpu (s : State) (v : Byte) : (setCtrl s v).cpu = s.cpu := rfl
@[simp] theorem setCtrl_ppu_ctrl (s : State) (v : Byte) : (setCtrl s v).ppu.ctrl = v := rfl
@[simp] theorem setCtrl_ppu_mask (s : State) (v : Byte) : (setCtrl s v).ppu.mask = s.ppu.mask := rfl
@[simp] theorem setCtrl_ppu_vblank (s : State) (v : Byte) : (setCtrl s v).ppu.vblank = s.ppu.vblank := rfl
@[simp] theorem setCtrl_host (s : State) (v : Byte) : (setCtrl s v).host = s.host := rfl
@[simp] theorem setCtrl_ext (s : State) (v : Byte) : (setCtrl s v).ext = s.ext := rfl
@[simp] theorem setCtrl_ram (s : State) (v : Byte) : (setCtrl s v).ram = s.ram := rfl
@[simp] theorem setCtrl_prg (s : State) (v : Byte) : (setCtrl s v).prg = s.prg := rfl
@[simp] theorem setCtrl_params (s : State) (v : Byte) : (setCtrl s v).params = s.params := rfl

@[simp] theorem setMask_mapper (s : State) (v : Byte) : (setMask s v).mapper = s.mapper := rfl
@[simp] theorem setMask_edge (s : State) (v : Byte) : (setMask s v).edge = s.edge := rfl
@[simp] theorem setMask_arb (s : State) (v : Byte) : (setMask s v).arb = s.arb := rfl
@[simp] theorem setMask_sched (s : State) (v : Byte) : (setMask s v).sched = s.sched := rfl
@[simp] theorem setMask_bus (s : State) (v : Byte) : (setMask s v).bus = s.bus := rfl
@[simp] theorem setMask_cpu (s : State) (v : Byte) : (setMask s v).cpu = s.cpu := rfl
@[simp] theorem setMask_ppu_ctrl (s : State) (v : Byte) : (setMask s v).ppu.ctrl = s.ppu.ctrl := rfl
@[simp] theorem setMask_ppu_mask (s : State) (v : Byte) : (setMask s v).ppu.mask = v := rfl
@[simp] theorem setMask_ppu_vblank (s : State) (v : Byte) : (setMask s v).ppu.vblank = s.ppu.vblank := rfl
@[simp] theorem setMask_host (s : State) (v : Byte) : (setMask s v).host = s.host := rfl
@[simp] theorem setMask_ext (s : State) (v : Byte) : (setMask s v).ext = s.ext := rfl
@[simp] theorem setMask_ram (s : State) (v : Byte) : (setMask s v).ram = s.ram := rfl
@[simp] theorem setMask_prg (s : State) (v : Byte) : (setMask s v).prg = s.prg := rfl
@[simp] theorem setMask_params (s : State) (v : Byte) : (setMask s v).params = s.params := rfl

@[simp] theorem setVblank_mapper (s : State) (v : Bool) : (setVblank s v).mapper = s.mapper := rfl
@[simp] theorem setVblank_edge (s : State) (v : Bool) : (setVblank s v).edge = s.edge := rfl
@[simp] theorem setVblank_arb (s : State) (v : Bool) : (setVblank s v).arb = s.arb := rfl
@[simp] theorem setVblank_sched (s : State) (v : Bool) : (setVblank s v).sched = s.sched := rfl
@[simp] theorem setVblank_bus (s : State) (v : Bool) : (setVblank s v).bus = s.bus := rfl
@[simp] theorem setVblank_cpu (s : State) (v : Bool) : (setVblank s v).cpu = s.cpu := rfl
@[simp] theorem setVblank_ppu_ctrl (s : State) (v : Bool) : (setVblank s v).ppu.ctrl = s.ppu.ctrl := rfl
@[simp] theorem setVblank_ppu_mask (s : State) (v : Bool) : (setVblank s v).ppu.mask = s.ppu.mask := rfl
@[simp] theorem setVblank_ppu_vblank (s : State) (v : Bool) : (setVblank s v).ppu.vblank = v := rfl
@[simp] theorem setVblank_host (s : State) (v : Bool) : (setVblank s v).host = s.host := rfl
@[simp] theorem setVblank_ext (s : State) (v : Bool) : (setVblank s v).ext = s.ext := rfl
@[simp] theorem setVblank_ram (s : State) (v : Bool) : (setVblank s v).ram = s.ram := rfl
@[simp] theorem setVblank_prg (s : State) (v : Bool) : (setVblank s v).prg = s.prg := rfl
@[simp] theorem setVblank_params (s : State) (v : Bool) : (setVblank s v).params = s.params := rfl

@[simp] theorem setHost_mapper (s : State) (v : HostSide) : (setHost s v).mapper = s.mapper := rfl
@[simp] theorem setHost_edge (s : State) (v : HostSide) : (setHost s v).edge = s.edge := rfl
@[simp] theorem setHost_arb (s : State) (v : HostSide) : (setHost s v).arb = s.arb := rfl
@[simp] theorem setHost_sched (s : State) (v : HostSide) : (setHost s v).sched = s.sched := rfl
@[simp] theorem setHost_bus (s : State) (v : HostSide) : (setHost s v).bus = s.bus := rfl
@[simp] theorem setHost_cpu (s : State) (v : HostSide) : (setHost s v).cpu = s.cpu := rfl
@[simp] theorem setHost_ppu (s : State) (v : HostSide) : (setHost s v).ppu = s.ppu := rfl
@[simp] theorem setHost_host (s : State) (v : HostSide) : (setHost s v).host = v := rfl
@[simp] theorem setHost_ext (s : State) (v : HostSide) : (setHost s v).ext = s.ext := rfl
@[simp] theorem setHost_ram (s : State) (v : HostSide) : (setHost s v).ram = s.ram := rfl
@[simp] theorem setHost_prg (s : State) (v : HostSide) : (setHost s v).prg = s.prg := rfl
@[simp] theorem setHost_params (s : State) (v : HostSide) : (setHost s v).params = s.params := rfl

@[simp] theorem setExt_mapper (s : State) (v : External) : (setExt s v).mapper = s.mapper := rfl
@[simp] theorem setExt_edge (s : State) (v : External) : (setExt s v).edge = s.edge := rfl
@[simp] theorem setExt_arb (s : State) (v : External) : (setExt s v).arb = s.arb := rfl
@[simp] theorem setExt_sched (s : State) (v : External) : (setExt s v).sched = s.sched := rfl
@[simp] theorem setExt_bus (s : State) (v : External) : (setExt s v).bus = s.bus := rfl
@[simp] theorem setExt_cpu (s : State) (v : External) : (setExt s v).cpu = s.cpu := rfl
@[simp] theorem setExt_ppu (s : State) (v : External) : (setExt s v).ppu = s.ppu := rfl
@[simp] theorem setExt_host (s : State) (v : External) : (setExt s v).host = s.host := rfl
@[simp] theorem setExt_ext (s : State) (v : External) : (setExt s v).ext = v := rfl
@[simp] theorem setExt_ram (s : State) (v : External) : (setExt s v).ram = s.ram := rfl
@[simp] theorem setExt_prg (s : State) (v : External) : (setExt s v).prg = s.prg := rfl
@[simp] theorem setExt_params (s : State) (v : External) : (setExt s v).params = s.params := rfl

@[simp] theorem setRam_mapper (s : State) (v : Memory) : (setRam s v).mapper = s.mapper := rfl
@[simp] theorem setRam_edge (s : State) (v : Memory) : (setRam s v).edge = s.edge := rfl
@[simp] theorem setRam_arb (s : State) (v : Memory) : (setRam s v).arb = s.arb := rfl
@[simp] theorem setRam_sched (s : State) (v : Memory) : (setRam s v).sched = s.sched := rfl
@[simp] theorem setRam_bus (s : State) (v : Memory) : (setRam s v).bus = s.bus := rfl
@[simp] theorem setRam_cpu (s : State) (v : Memory) : (setRam s v).cpu = s.cpu := rfl
@[simp] theorem setRam_ppu (s : State) (v : Memory) : (setRam s v).ppu = s.ppu := rfl
@[simp] theorem setRam_host (s : State) (v : Memory) : (setRam s v).host = s.host := rfl
@[simp] theorem setRam_ext (s : State) (v : Memory) : (setRam s v).ext = s.ext := rfl
@[simp] theorem setRam_ram (s : State) (v : Memory) : (setRam s v).ram = v := rfl
@[simp] theorem setRam_prg (s : State) (v : Memory) : (setRam s v).prg = s.prg := rfl
@[simp] theorem setRam_params (s : State) (v : Memory) : (setRam s v).params = s.params := rfl

end Sys2Proof.Machine
end

