-- ==== Sys2Proof/Laws/Bus.lean ====
section
/-! SUPPORT. What each shared operation of Machine/Ops.lean leaves unchanged, once per operation: the external collaborators, one
CPU read, one CPU write, the stack, taking an interrupt and returning from one. -/

namespace Sys2Proof.Machine

/-! `bankWrite` changes the collaborator's own state and nothing else. -/

@[simp] theorem bankWrite_mapper (s : State) (a : Addr) (v : Byte) : (bankWrite s a v).mapper = s.mapper := by
  unfold bankWrite; split <;> rfl
@[simp] theorem bankWrite_edge (s : State) (a : Addr) (v : Byte) : (bankWrite s a v).edge = s.edge := by
  unfold bankWrite; split <;> rfl
@[simp] theorem bankWrite_arb (s : State) (a : Addr) (v : Byte) : (bankWrite s a v).arb = s.arb := by
  unfold bankWrite; split <;> rfl
@[simp] theorem bankWrite_sched (s : State) (a : Addr) (v : Byte) : (bankWrite s a v).sched = s.sched := by
  unfold bankWrite; split <;> rfl
@[simp] theorem bankWrite_bus (s : State) (a : Addr) (v : Byte) : (bankWrite s a v).bus = s.bus := by
  unfold bankWrite; split <;> rfl
@[simp] theorem bankWrite_cpu (s : State) (a : Addr) (v : Byte) : (bankWrite s a v).cpu = s.cpu := by
  unfold bankWrite; split <;> rfl
@[simp] theorem bankWrite_ppu (s : State) (a : Addr) (v : Byte) : (bankWrite s a v).ppu = s.ppu := by
  unfold bankWrite; split <;> rfl
@[simp] theorem bankWrite_host (s : State) (a : Addr) (v : Byte) : (bankWrite s a v).host = s.host := by
  unfold bankWrite; split <;> rfl
@[simp] theorem bankWrite_ram (s : State) (a : Addr) (v : Byte) : (bankWrite s a v).ram = s.ram := by
  unfold bankWrite; split <;> rfl
@[simp] theorem bankWrite_prg (s : State) (a : Addr) (v : Byte) : (bankWrite s a v).prg = s.prg := by
  unfold bankWrite; split <;> rfl
@[simp] theorem bankWrite_params (s : State) (a : Addr) (v : Byte) : (bankWrite s a v).params = s.params := by
  unfold bankWrite; split <;> rfl
@[simp] theorem bankWrite_cpuExec (s : State) (a : Addr) (v : Byte) : (bankWrite s a v).ext.cpuExec = s.ext.cpuExec := by
  unfold bankWrite; split <;> rfl
@[simp] theorem bankWrite_fullPpu (s : State) (a : Addr) (v : Byte) : (bankWrite s a v).ext.fullPpu = s.ext.fullPpu := by
  unfold bankWrite; split <;> rfl
@[simp] theorem bankWrite_widePpu (s : State) (a : Addr) (v : Byte) : (bankWrite s a v).ext.widePpu = s.ext.widePpu := by
  unfold bankWrite; split <;> rfl
@[simp] theorem bankWrite_apuIo (s : State) (a : Addr) (v : Byte) : (bankWrite s a v).ext.apuIo = s.ext.apuIo := by
  unfold bankWrite; split <;> rfl
@[simp] theorem bankWrite_cart (s : State) (a : Addr) (v : Byte) : (bankWrite s a v).ext.cart = s.ext.cart := by
  unfold bankWrite; split <;> rfl

/-! `cartLowRead` changes the collaborator's own state and nothing else. -/

@[simp] theorem cartLowRead_mapper (s : State) (a : Addr) : (cartLowRead s a).2.mapper = s.mapper := by
  unfold cartLowRead; split <;> rfl
@[simp] theorem cartLowRead_edge (s : State) (a : Addr) : (cartLowRead s a).2.edge = s.edge := by
  unfold cartLowRead; split <;> rfl
@[simp] theorem cartLowRead_arb (s : State) (a : Addr) : (cartLowRead s a).2.arb = s.arb := by
  unfold cartLowRead; split <;> rfl
@[simp] theorem cartLowRead_sched (s : State) (a : Addr) : (cartLowRead s a).2.sched = s.sched := by
  unfold cartLowRead; split <;> rfl
@[simp] theorem cartLowRead_bus (s : State) (a : Addr) : (cartLowRead s a).2.bus = s.bus := by
  unfold cartLowRead; split <;> rfl
@[simp] theorem cartLowRead_cpu (s : State) (a : Addr) : (cartLowRead s a).2.cpu = s.cpu := by
  unfold cartLowRead; split <;> rfl
@[simp] theorem cartLowRead_ppu (s : State) (a : Addr) : (cartLowRead s a).2.ppu = s.ppu := by
  unfold cartLowRead; split <;> rfl
@[simp] theorem cartLowRead_host (s : State) (a : Addr) : (cartLowRead s a).2.host = s.host := by
  unfold cartLowRead; split <;> rfl
@[simp] theorem cartLowRead_ram (s : State) (a : Addr) : (cartLowRead s a).2.ram = s.ram := by
  unfold cartLowRead; split <;> rfl
@[simp] theorem cartLowRead_prg (s : State) (a : Addr) : (cartLowRead s a).2.prg = s.prg := by
  unfold cartLowRead; split <;> rfl
@[simp] theorem cartLowRead_params (s : State) (a : Addr) : (cartLowRead s a).2.params = s.params := by
  unfold cartLowRead; split <;> rfl
@[simp] theorem cartLowRead_cpuExec (s : State) (a : Addr) : (cartLowRead s a).2.ext.cpuExec = s.ext.cpuExec := by
  unfold cartLowRead; split <;> rfl
@[simp] theorem cartLowRead_fullPpu (s : State) (a : Addr) : (cartLowRead s a).2.ext.fullPpu = s.ext.fullPpu := by
  unfold cartLowRead; split <;> rfl
@[simp] theorem cartLowRead_widePpu (s : State) (a : Addr) : (cartLowRead s a).2.ext.widePpu = s.ext.widePpu := by
  unfold cartLowRead; split <;> rfl
@[simp] theorem cartLowRead_apuIo (s : State) (a : Addr) : (cartLowRead s a).2.ext.apuIo = s.ext.apuIo := by
  unfold cartLowRead; split <;> rfl
@[simp] theorem cartLowRead_cart (s : State) (a : Addr) : (cartLowRead s a).2.ext.cart = s.ext.cart := by
  unfold cartLowRead; split <;> rfl

/-! `cartLowWrite` changes the collaborator's own state and nothing else. -/

@[simp] theorem cartLowWrite_mapper (s : State) (a : Addr) (v : Byte) : (cartLowWrite s a v).mapper = s.mapper := by
  unfold cartLowWrite; split <;> rfl
@[simp] theorem cartLowWrite_edge (s : State) (a : Addr) (v : Byte) : (cartLowWrite s a v).edge = s.edge := by
  unfold cartLowWrite; split <;> rfl
@[simp] theorem cartLowWrite_arb (s : State) (a : Addr) (v : Byte) : (cartLowWrite s a v).arb = s.arb := by
  unfold cartLowWrite; split <;> rfl
@[simp] theorem cartLowWrite_sched (s : State) (a : Addr) (v : Byte) : (cartLowWrite s a v).sched = s.sched := by
  unfold cartLowWrite; split <;> rfl
@[simp] theorem cartLowWrite_bus (s : State) (a : Addr) (v : Byte) : (cartLowWrite s a v).bus = s.bus := by
  unfold cartLowWrite; split <;> rfl
@[simp] theorem cartLowWrite_cpu (s : State) (a : Addr) (v : Byte) : (cartLowWrite s a v).cpu = s.cpu := by
  unfold cartLowWrite; split <;> rfl
@[simp] theorem cartLowWrite_ppu (s : State) (a : Addr) (v : Byte) : (cartLowWrite s a v).ppu = s.ppu := by
  unfold cartLowWrite; split <;> rfl
@[simp] theorem cartLowWrite_host (s : State) (a : Addr) (v : Byte) : (cartLowWrite s a v).host = s.host := by
  unfold cartLowWrite; split <;> rfl
@[simp] theorem cartLowWrite_ram (s : State) (a : Addr) (v : Byte) : (cartLowWrite s a v).ram = s.ram := by
  unfold cartLowWrite; split <;> rfl
@[simp] theorem cartLowWrite_prg (s : State) (a : Addr) (v : Byte) : (cartLowWrite s a v).prg = s.prg := by
  unfold cartLowWrite; split <;> rfl
@[simp] theorem cartLowWrite_params (s : State) (a : Addr) (v : Byte) : (cartLowWrite s a v).params = s.params := by
  unfold cartLowWrite; split <;> rfl
@[simp] theorem cartLowWrite_cpuExec (s : State) (a : Addr) (v : Byte) : (cartLowWrite s a v).ext.cpuExec = s.ext.cpuExec := by
  unfold cartLowWrite; split <;> rfl
@[simp] theorem cartLowWrite_fullPpu (s : State) (a : Addr) (v : Byte) : (cartLowWrite s a v).ext.fullPpu = s.ext.fullPpu := by
  unfold cartLowWrite; split <;> rfl
@[simp] theorem cartLowWrite_widePpu (s : State) (a : Addr) (v : Byte) : (cartLowWrite s a v).ext.widePpu = s.ext.widePpu := by
  unfold cartLowWrite; split <;> rfl
@[simp] theorem cartLowWrite_apuIo (s : State) (a : Addr) (v : Byte) : (cartLowWrite s a v).ext.apuIo = s.ext.apuIo := by
  unfold cartLowWrite; split <;> rfl
@[simp] theorem cartLowWrite_cart (s : State) (a : Addr) (v : Byte) : (cartLowWrite s a v).ext.cart = s.ext.cart := by
  unfold cartLowWrite; split <;> rfl

/-! `apuIoRead` changes the collaborator's own state and nothing else. -/

@[simp] theorem apuIoRead_mapper (s : State) (a : Addr) : (apuIoRead s a).2.mapper = s.mapper := by
  unfold apuIoRead; split <;> rfl
@[simp] theorem apuIoRead_edge (s : State) (a : Addr) : (apuIoRead s a).2.edge = s.edge := by
  unfold apuIoRead; split <;> rfl
@[simp] theorem apuIoRead_arb (s : State) (a : Addr) : (apuIoRead s a).2.arb = s.arb := by
  unfold apuIoRead; split <;> rfl
@[simp] theorem apuIoRead_sched (s : State) (a : Addr) : (apuIoRead s a).2.sched = s.sched := by
  unfold apuIoRead; split <;> rfl
@[simp] theorem apuIoRead_bus (s : State) (a : Addr) : (apuIoRead s a).2.bus = s.bus := by
  unfold apuIoRead; split <;> rfl
@[simp] theorem apuIoRead_cpu (s : State) (a : Addr) : (apuIoRead s a).2.cpu = s.cpu := by
  unfold apuIoRead; split <;> rfl
@[simp] theorem apuIoRead_ppu (s : State) (a : Addr) : (apuIoRead s a).2.ppu = s.ppu := by
  unfold apuIoRead; split <;> rfl
@[simp] theorem apuIoRead_host (s : State) (a : Addr) : (apuIoRead s a).2.host = s.host := by
  unfold apuIoRead; split <;> rfl
@[simp] theorem apuIoRead_ram (s : State) (a : Addr) : (apuIoRead s a).2.ram = s.ram := by
  unfold apuIoRead; split <;> rfl
@[simp] theorem apuIoRead_prg (s : State) (a : Addr) : (apuIoRead s a).2.prg = s.prg := by
  unfold apuIoRead; split <;> rfl
@[simp] theorem apuIoRead_params (s : State) (a : Addr) : (apuIoRead s a).2.params = s.params := by
  unfold apuIoRead; split <;> rfl
@[simp] theorem apuIoRead_cpuExec (s : State) (a : Addr) : (apuIoRead s a).2.ext.cpuExec = s.ext.cpuExec := by
  unfold apuIoRead; split <;> rfl
@[simp] theorem apuIoRead_fullPpu (s : State) (a : Addr) : (apuIoRead s a).2.ext.fullPpu = s.ext.fullPpu := by
  unfold apuIoRead; split <;> rfl
@[simp] theorem apuIoRead_widePpu (s : State) (a : Addr) : (apuIoRead s a).2.ext.widePpu = s.ext.widePpu := by
  unfold apuIoRead; split <;> rfl
@[simp] theorem apuIoRead_apuIo (s : State) (a : Addr) : (apuIoRead s a).2.ext.apuIo = s.ext.apuIo := by
  unfold apuIoRead; split <;> rfl
@[simp] theorem apuIoRead_cart (s : State) (a : Addr) : (apuIoRead s a).2.ext.cart = s.ext.cart := by
  unfold apuIoRead; split <;> rfl

/-! `apuIoWrite` changes the collaborator's own state and nothing else. -/

@[simp] theorem apuIoWrite_mapper (s : State) (a : Addr) (v : Byte) : (apuIoWrite s a v).mapper = s.mapper := by
  unfold apuIoWrite; split <;> rfl
@[simp] theorem apuIoWrite_edge (s : State) (a : Addr) (v : Byte) : (apuIoWrite s a v).edge = s.edge := by
  unfold apuIoWrite; split <;> rfl
@[simp] theorem apuIoWrite_arb (s : State) (a : Addr) (v : Byte) : (apuIoWrite s a v).arb = s.arb := by
  unfold apuIoWrite; split <;> rfl
@[simp] theorem apuIoWrite_sched (s : State) (a : Addr) (v : Byte) : (apuIoWrite s a v).sched = s.sched := by
  unfold apuIoWrite; split <;> rfl
@[simp] theorem apuIoWrite_bus (s : State) (a : Addr) (v : Byte) : (apuIoWrite s a v).bus = s.bus := by
  unfold apuIoWrite; split <;> rfl
@[simp] theorem apuIoWrite_cpu (s : State) (a : Addr) (v : Byte) : (apuIoWrite s a v).cpu = s.cpu := by
  unfold apuIoWrite; split <;> rfl
@[simp] theorem apuIoWrite_ppu (s : State) (a : Addr) (v : Byte) : (apuIoWrite s a v).ppu = s.ppu := by
  unfold apuIoWrite; split <;> rfl
@[simp] theorem apuIoWrite_host (s : State) (a : Addr) (v : Byte) : (apuIoWrite s a v).host = s.host := by
  unfold apuIoWrite; split <;> rfl
@[simp] theorem apuIoWrite_ram (s : State) (a : Addr) (v : Byte) : (apuIoWrite s a v).ram = s.ram := by
  unfold apuIoWrite; split <;> rfl
@[simp] theorem apuIoWrite_prg (s : State) (a : Addr) (v : Byte) : (apuIoWrite s a v).prg = s.prg := by
  unfold apuIoWrite; split <;> rfl
@[simp] theorem apuIoWrite_params (s : State) (a : Addr) (v : Byte) : (apuIoWrite s a v).params = s.params := by
  unfold apuIoWrite; split <;> rfl
@[simp] theorem apuIoWrite_cpuExec (s : State) (a : Addr) (v : Byte) : (apuIoWrite s a v).ext.cpuExec = s.ext.cpuExec := by
  unfold apuIoWrite; split <;> rfl
@[simp] theorem apuIoWrite_fullPpu (s : State) (a : Addr) (v : Byte) : (apuIoWrite s a v).ext.fullPpu = s.ext.fullPpu := by
  unfold apuIoWrite; split <;> rfl
@[simp] theorem apuIoWrite_widePpu (s : State) (a : Addr) (v : Byte) : (apuIoWrite s a v).ext.widePpu = s.ext.widePpu := by
  unfold apuIoWrite; split <;> rfl
@[simp] theorem apuIoWrite_apuIo (s : State) (a : Addr) (v : Byte) : (apuIoWrite s a v).ext.apuIo = s.ext.apuIo := by
  unfold apuIoWrite; split <;> rfl
@[simp] theorem apuIoWrite_cart (s : State) (a : Addr) (v : Byte) : (apuIoWrite s a v).ext.cart = s.ext.cart := by
  unfold apuIoWrite; split <;> rfl

/-! `ppuRegRead` changes the collaborator's own state and nothing else. -/

@[simp] theorem ppuRegRead_mapper (s : State) (r : BitVec 3) : (ppuRegRead s r).2.mapper = s.mapper := by
  unfold ppuRegRead; split <;> rfl
@[simp] theorem ppuRegRead_edge (s : State) (r : BitVec 3) : (ppuRegRead s r).2.edge = s.edge := by
  unfold ppuRegRead; split <;> rfl
@[simp] theorem ppuRegRead_arb (s : State) (r : BitVec 3) : (ppuRegRead s r).2.arb = s.arb := by
  unfold ppuRegRead; split <;> rfl
@[simp] theorem ppuRegRead_sched (s : State) (r : BitVec 3) : (ppuRegRead s r).2.sched = s.sched := by
  unfold ppuRegRead; split <;> rfl
@[simp] theorem ppuRegRead_bus (s : State) (r : BitVec 3) : (ppuRegRead s r).2.bus = s.bus := by
  unfold ppuRegRead; split <;> rfl
@[simp] theorem ppuRegRead_cpu (s : State) (r : BitVec 3) : (ppuRegRead s r).2.cpu = s.cpu := by
  unfold ppuRegRead; split <;> rfl
@[simp] theorem ppuRegRead_ppu (s : State) (r : BitVec 3) : (ppuRegRead s r).2.ppu = s.ppu := by
  unfold ppuRegRead; split <;> rfl
@[simp] theorem ppuRegRead_host (s : State) (r : BitVec 3) : (ppuRegRead s r).2.host = s.host := by
  unfold ppuRegRead; split <;> rfl
@[simp] theorem ppuRegRead_ram (s : State) (r : BitVec 3) : (ppuRegRead s r).2.ram = s.ram := by
  unfold ppuRegRead; split <;> rfl
@[simp] theorem ppuRegRead_prg (s : State) (r : BitVec 3) : (ppuRegRead s r).2.prg = s.prg := by
  unfold ppuRegRead; split <;> rfl
@[simp] theorem ppuRegRead_params (s : State) (r : BitVec 3) : (ppuRegRead s r).2.params = s.params := by
  unfold ppuRegRead; split <;> rfl
@[simp] theorem ppuRegRead_cpuExec (s : State) (r : BitVec 3) : (ppuRegRead s r).2.ext.cpuExec = s.ext.cpuExec := by
  unfold ppuRegRead; split <;> rfl
@[simp] theorem ppuRegRead_fullPpu (s : State) (r : BitVec 3) : (ppuRegRead s r).2.ext.fullPpu = s.ext.fullPpu := by
  unfold ppuRegRead; split <;> rfl
@[simp] theorem ppuRegRead_widePpu (s : State) (r : BitVec 3) : (ppuRegRead s r).2.ext.widePpu = s.ext.widePpu := by
  unfold ppuRegRead; split <;> rfl
@[simp] theorem ppuRegRead_apuIo (s : State) (r : BitVec 3) : (ppuRegRead s r).2.ext.apuIo = s.ext.apuIo := by
  unfold ppuRegRead; split <;> rfl
@[simp] theorem ppuRegRead_cart (s : State) (r : BitVec 3) : (ppuRegRead s r).2.ext.cart = s.ext.cart := by
  unfold ppuRegRead; split <;> rfl

/-! `ppuRegWrite` changes the collaborator's own state and nothing else. -/

@[simp] theorem ppuRegWrite_mapper (s : State) (r : BitVec 3) (v : Byte) : (ppuRegWrite s r v).mapper = s.mapper := by
  unfold ppuRegWrite; split <;> rfl
@[simp] theorem ppuRegWrite_edge (s : State) (r : BitVec 3) (v : Byte) : (ppuRegWrite s r v).edge = s.edge := by
  unfold ppuRegWrite; split <;> rfl
@[simp] theorem ppuRegWrite_arb (s : State) (r : BitVec 3) (v : Byte) : (ppuRegWrite s r v).arb = s.arb := by
  unfold ppuRegWrite; split <;> rfl
@[simp] theorem ppuRegWrite_sched (s : State) (r : BitVec 3) (v : Byte) : (ppuRegWrite s r v).sched = s.sched := by
  unfold ppuRegWrite; split <;> rfl
@[simp] theorem ppuRegWrite_bus (s : State) (r : BitVec 3) (v : Byte) : (ppuRegWrite s r v).bus = s.bus := by
  unfold ppuRegWrite; split <;> rfl
@[simp] theorem ppuRegWrite_cpu (s : State) (r : BitVec 3) (v : Byte) : (ppuRegWrite s r v).cpu = s.cpu := by
  unfold ppuRegWrite; split <;> rfl
@[simp] theorem ppuRegWrite_ppu (s : State) (r : BitVec 3) (v : Byte) : (ppuRegWrite s r v).ppu = s.ppu := by
  unfold ppuRegWrite; split <;> rfl
@[simp] theorem ppuRegWrite_host (s : State) (r : BitVec 3) (v : Byte) : (ppuRegWrite s r v).host = s.host := by
  unfold ppuRegWrite; split <;> rfl
@[simp] theorem ppuRegWrite_ram (s : State) (r : BitVec 3) (v : Byte) : (ppuRegWrite s r v).ram = s.ram := by
  unfold ppuRegWrite; split <;> rfl
@[simp] theorem ppuRegWrite_prg (s : State) (r : BitVec 3) (v : Byte) : (ppuRegWrite s r v).prg = s.prg := by
  unfold ppuRegWrite; split <;> rfl
@[simp] theorem ppuRegWrite_params (s : State) (r : BitVec 3) (v : Byte) : (ppuRegWrite s r v).params = s.params := by
  unfold ppuRegWrite; split <;> rfl
@[simp] theorem ppuRegWrite_cpuExec (s : State) (r : BitVec 3) (v : Byte) : (ppuRegWrite s r v).ext.cpuExec = s.ext.cpuExec := by
  unfold ppuRegWrite; split <;> rfl
@[simp] theorem ppuRegWrite_fullPpu (s : State) (r : BitVec 3) (v : Byte) : (ppuRegWrite s r v).ext.fullPpu = s.ext.fullPpu := by
  unfold ppuRegWrite; split <;> rfl
@[simp] theorem ppuRegWrite_widePpu (s : State) (r : BitVec 3) (v : Byte) : (ppuRegWrite s r v).ext.widePpu = s.ext.widePpu := by
  unfold ppuRegWrite; split <;> rfl
@[simp] theorem ppuRegWrite_apuIo (s : State) (r : BitVec 3) (v : Byte) : (ppuRegWrite s r v).ext.apuIo = s.ext.apuIo := by
  unfold ppuRegWrite; split <;> rfl
@[simp] theorem ppuRegWrite_cart (s : State) (r : BitVec 3) (v : Byte) : (ppuRegWrite s r v).ext.cart = s.ext.cart := by
  unfold ppuRegWrite; split <;> rfl

/-! `ppuStatusBits` changes the collaborator's own state and nothing else. -/

@[simp] theorem ppuStatusBits_mapper (s : State) : (ppuStatusBits s).2.mapper = s.mapper := by
  unfold ppuStatusBits; split <;> rfl
@[simp] theorem ppuStatusBits_edge (s : State) : (ppuStatusBits s).2.edge = s.edge := by
  unfold ppuStatusBits; split <;> rfl
@[simp] theorem ppuStatusBits_arb (s : State) : (ppuStatusBits s).2.arb = s.arb := by
  unfold ppuStatusBits; split <;> rfl
@[simp] theorem ppuStatusBits_sched (s : State) : (ppuStatusBits s).2.sched = s.sched := by
  unfold ppuStatusBits; split <;> rfl
@[simp] theorem ppuStatusBits_bus (s : State) : (ppuStatusBits s).2.bus = s.bus := by
  unfold ppuStatusBits; split <;> rfl
@[simp] theorem ppuStatusBits_cpu (s : State) : (ppuStatusBits s).2.cpu = s.cpu := by
  unfold ppuStatusBits; split <;> rfl
@[simp] theorem ppuStatusBits_ppu (s : State) : (ppuStatusBits s).2.ppu = s.ppu := by
  unfold ppuStatusBits; split <;> rfl
@[simp] theorem ppuStatusBits_host (s : State) : (ppuStatusBits s).2.host = s.host := by
  unfold ppuStatusBits; split <;> rfl
@[simp] theorem ppuStatusBits_ram (s : State) : (ppuStatusBits s).2.ram = s.ram := by
  unfold ppuStatusBits; split <;> rfl
@[simp] theorem ppuStatusBits_prg (s : State) : (ppuStatusBits s).2.prg = s.prg := by
  unfold ppuStatusBits; split <;> rfl
@[simp] theorem ppuStatusBits_params (s : State) : (ppuStatusBits s).2.params = s.params := by
  unfold ppuStatusBits; split <;> rfl
@[simp] theorem ppuStatusBits_cpuExec (s : State) : (ppuStatusBits s).2.ext.cpuExec = s.ext.cpuExec := by
  unfold ppuStatusBits; split <;> rfl
@[simp] theorem ppuStatusBits_fullPpu (s : State) : (ppuStatusBits s).2.ext.fullPpu = s.ext.fullPpu := by
  unfold ppuStatusBits; split <;> rfl
@[simp] theorem ppuStatusBits_widePpu (s : State) : (ppuStatusBits s).2.ext.widePpu = s.ext.widePpu := by
  unfold ppuStatusBits; split <;> rfl
@[simp] theorem ppuStatusBits_apuIo (s : State) : (ppuStatusBits s).2.ext.apuIo = s.ext.apuIo := by
  unfold ppuStatusBits; split <;> rfl
@[simp] theorem ppuStatusBits_cart (s : State) : (ppuStatusBits s).2.ext.cart = s.ext.cart := by
  unfold ppuStatusBits; split <;> rfl

/-! One CPU read (R146): registers, RAM, the mapper, the detector, the scheduler and the host side stay; the latch, the
vertical-blank flag and the collaborators may change. -/

@[simp] theorem targetRead_mapper (s : State) (a : Addr) : (targetRead s a).2.mapper = s.mapper := by
  unfold targetRead ppuTargetRead ppuStatusRead; split <;> (try split) <;> simp
@[simp] theorem targetRead_edge (s : State) (a : Addr) : (targetRead s a).2.edge = s.edge := by
  unfold targetRead ppuTargetRead ppuStatusRead; split <;> (try split) <;> simp
@[simp] theorem targetRead_arb (s : State) (a : Addr) : (targetRead s a).2.arb = s.arb := by
  unfold targetRead ppuTargetRead ppuStatusRead; split <;> (try split) <;> simp
@[simp] theorem targetRead_sched (s : State) (a : Addr) : (targetRead s a).2.sched = s.sched := by
  unfold targetRead ppuTargetRead ppuStatusRead; split <;> (try split) <;> simp
@[simp] theorem targetRead_cpu (s : State) (a : Addr) : (targetRead s a).2.cpu = s.cpu := by
  unfold targetRead ppuTargetRead ppuStatusRead; split <;> (try split) <;> simp
@[simp] theorem targetRead_host (s : State) (a : Addr) : (targetRead s a).2.host = s.host := by
  unfold targetRead ppuTargetRead ppuStatusRead; split <;> (try split) <;> simp
@[simp] theorem targetRead_ram (s : State) (a : Addr) : (targetRead s a).2.ram = s.ram := by
  unfold targetRead ppuTargetRead ppuStatusRead; split <;> (try split) <;> simp
@[simp] theorem targetRead_prg (s : State) (a : Addr) : (targetRead s a).2.prg = s.prg := by
  unfold targetRead ppuTargetRead ppuStatusRead; split <;> (try split) <;> simp
@[simp] theorem targetRead_params (s : State) (a : Addr) : (targetRead s a).2.params = s.params := by
  unfold targetRead ppuTargetRead ppuStatusRead; split <;> (try split) <;> simp
@[simp] theorem targetRead_ppu_ctrl (s : State) (a : Addr) : (targetRead s a).2.ppu.ctrl = s.ppu.ctrl := by
  unfold targetRead ppuTargetRead ppuStatusRead; split <;> (try split) <;> simp
@[simp] theorem targetRead_ppu_mask (s : State) (a : Addr) : (targetRead s a).2.ppu.mask = s.ppu.mask := by
  unfold targetRead ppuTargetRead ppuStatusRead; split <;> (try split) <;> simp
@[simp] theorem targetRead_ext_cpuExec (s : State) (a : Addr) : (targetRead s a).2.ext.cpuExec = s.ext.cpuExec := by
  unfold targetRead ppuTargetRead ppuStatusRead; split <;> (try split) <;> simp
@[simp] theorem targetRead_ext_fullPpu (s : State) (a : Addr) : (targetRead s a).2.ext.fullPpu = s.ext.fullPpu := by
  unfold targetRead ppuTargetRead ppuStatusRead; split <;> (try split) <;> simp
@[simp] theorem targetRead_ext_widePpu (s : State) (a : Addr) : (targetRead s a).2.ext.widePpu = s.ext.widePpu := by
  unfold targetRead ppuTargetRead ppuStatusRead; split <;> (try split) <;> simp
@[simp] theorem targetRead_ext_apuIo (s : State) (a : Addr) : (targetRead s a).2.ext.apuIo = s.ext.apuIo := by
  unfold targetRead ppuTargetRead ppuStatusRead; split <;> (try split) <;> simp
@[simp] theorem targetRead_ext_cart (s : State) (a : Addr) : (targetRead s a).2.ext.cart = s.ext.cart := by
  unfold targetRead ppuTargetRead ppuStatusRead; split <;> (try split) <;> simp
@[simp] theorem memRead_mapper (s : State) (a : Addr) : (memRead s a).2.mapper = s.mapper := by
  unfold memRead finishRead; split <;> simp
@[simp] theorem memRead_edge (s : State) (a : Addr) : (memRead s a).2.edge = s.edge := by
  unfold memRead finishRead; split <;> simp
@[simp] theorem memRead_arb (s : State) (a : Addr) : (memRead s a).2.arb = s.arb := by
  unfold memRead finishRead; split <;> simp
@[simp] theorem memRead_sched (s : State) (a : Addr) : (memRead s a).2.sched = s.sched := by
  unfold memRead finishRead; split <;> simp
@[simp] theorem memRead_cpu (s : State) (a : Addr) : (memRead s a).2.cpu = s.cpu := by
  unfold memRead finishRead; split <;> simp
@[simp] theorem memRead_host (s : State) (a : Addr) : (memRead s a).2.host = s.host := by
  unfold memRead finishRead; split <;> simp
@[simp] theorem memRead_ram (s : State) (a : Addr) : (memRead s a).2.ram = s.ram := by
  unfold memRead finishRead; split <;> simp
@[simp] theorem memRead_prg (s : State) (a : Addr) : (memRead s a).2.prg = s.prg := by
  unfold memRead finishRead; split <;> simp
@[simp] theorem memRead_params (s : State) (a : Addr) : (memRead s a).2.params = s.params := by
  unfold memRead finishRead; split <;> simp
@[simp] theorem memRead_ppu_ctrl (s : State) (a : Addr) : (memRead s a).2.ppu.ctrl = s.ppu.ctrl := by
  unfold memRead finishRead; split <;> simp
@[simp] theorem memRead_ppu_mask (s : State) (a : Addr) : (memRead s a).2.ppu.mask = s.ppu.mask := by
  unfold memRead finishRead; split <;> simp
@[simp] theorem memRead_ext_cpuExec (s : State) (a : Addr) : (memRead s a).2.ext.cpuExec = s.ext.cpuExec := by
  unfold memRead finishRead; split <;> simp
@[simp] theorem memRead_ext_fullPpu (s : State) (a : Addr) : (memRead s a).2.ext.fullPpu = s.ext.fullPpu := by
  unfold memRead finishRead; split <;> simp
@[simp] theorem memRead_ext_widePpu (s : State) (a : Addr) : (memRead s a).2.ext.widePpu = s.ext.widePpu := by
  unfold memRead finishRead; split <;> simp
@[simp] theorem memRead_ext_apuIo (s : State) (a : Addr) : (memRead s a).2.ext.apuIo = s.ext.apuIo := by
  unfold memRead finishRead; split <;> simp
@[simp] theorem memRead_ext_cart (s : State) (a : Addr) : (memRead s a).2.ext.cart = s.ext.cart := by
  unfold memRead finishRead; split <;> simp

/-! A read changes neither the banking nor `cpu_exec`'s state (R144, R186). -/

@[simp] theorem cartLowRead_bankSt (s : State) (a : Addr) : (cartLowRead s a).2.ext.bankSt = s.ext.bankSt := by
  unfold cartLowRead; split <;> rfl
@[simp] theorem apuIoRead_bankSt (s : State) (a : Addr) : (apuIoRead s a).2.ext.bankSt = s.ext.bankSt := by
  unfold apuIoRead; split <;> rfl
@[simp] theorem ppuRegRead_bankSt (s : State) (r : BitVec 3) : (ppuRegRead s r).2.ext.bankSt = s.ext.bankSt := by
  unfold ppuRegRead; split <;> rfl
@[simp] theorem ppuStatusBits_bankSt (s : State) : (ppuStatusBits s).2.ext.bankSt = s.ext.bankSt := by
  unfold ppuStatusBits; split <;> rfl
@[simp] theorem targetRead_ext_bankSt (s : State) (a : Addr) : (targetRead s a).2.ext.bankSt = s.ext.bankSt := by
  unfold targetRead ppuTargetRead ppuStatusRead; split <;> (try split) <;> simp
@[simp] theorem memRead_ext_bankSt (s : State) (a : Addr) : (memRead s a).2.ext.bankSt = s.ext.bankSt := by
  unfold memRead finishRead; split <;> simp
@[simp] theorem cartLowRead_cpuSt (s : State) (a : Addr) : (cartLowRead s a).2.ext.cpuSt = s.ext.cpuSt := by
  unfold cartLowRead; split <;> rfl
@[simp] theorem apuIoRead_cpuSt (s : State) (a : Addr) : (apuIoRead s a).2.ext.cpuSt = s.ext.cpuSt := by
  unfold apuIoRead; split <;> rfl
@[simp] theorem ppuRegRead_cpuSt (s : State) (r : BitVec 3) : (ppuRegRead s r).2.ext.cpuSt = s.ext.cpuSt := by
  unfold ppuRegRead; split <;> rfl
@[simp] theorem ppuStatusBits_cpuSt (s : State) : (ppuStatusBits s).2.ext.cpuSt = s.ext.cpuSt := by
  unfold ppuStatusBits; split <;> rfl
@[simp] theorem targetRead_ext_cpuSt (s : State) (a : Addr) : (targetRead s a).2.ext.cpuSt = s.ext.cpuSt := by
  unfold targetRead ppuTargetRead ppuStatusRead; split <;> (try split) <;> simp
@[simp] theorem memRead_ext_cpuSt (s : State) (a : Addr) : (memRead s a).2.ext.cpuSt = s.ext.cpuSt := by
  unfold memRead finishRead; split <;> simp

/-! One CPU write (R147): what it may change is the latch, the mapper, PPUCTRL, PPUMASK, a DMA request, RAM and the
collaborators. -/

@[simp] theorem targetWrite_edge (s : State) (a : Addr) (v : Byte) : (targetWrite s a v).edge = s.edge := by
  unfold targetWrite ramStore ppuTargetWrite apuTargetWrite mapperTargetWrite; split <;> (try split) <;> (try split) <;> simp
@[simp] theorem targetWrite_arb (s : State) (a : Addr) (v : Byte) : (targetWrite s a v).arb = s.arb := by
  unfold targetWrite ramStore ppuTargetWrite apuTargetWrite mapperTargetWrite; split <;> (try split) <;> (try split) <;> simp
@[simp] theorem targetWrite_sched (s : State) (a : Addr) (v : Byte) : (targetWrite s a v).sched = s.sched := by
  unfold targetWrite ramStore ppuTargetWrite apuTargetWrite mapperTargetWrite; split <;> (try split) <;> (try split) <;> simp
@[simp] theorem targetWrite_host (s : State) (a : Addr) (v : Byte) : (targetWrite s a v).host = s.host := by
  unfold targetWrite ramStore ppuTargetWrite apuTargetWrite mapperTargetWrite; split <;> (try split) <;> (try split) <;> simp
@[simp] theorem targetWrite_prg (s : State) (a : Addr) (v : Byte) : (targetWrite s a v).prg = s.prg := by
  unfold targetWrite ramStore ppuTargetWrite apuTargetWrite mapperTargetWrite; split <;> (try split) <;> (try split) <;> simp
@[simp] theorem targetWrite_params (s : State) (a : Addr) (v : Byte) : (targetWrite s a v).params = s.params := by
  unfold targetWrite ramStore ppuTargetWrite apuTargetWrite mapperTargetWrite; split <;> (try split) <;> (try split) <;> simp
@[simp] theorem targetWrite_cpu_pc (s : State) (a : Addr) (v : Byte) : (targetWrite s a v).cpu.pc = s.cpu.pc := by
  unfold targetWrite ramStore ppuTargetWrite apuTargetWrite mapperTargetWrite; split <;> (try split) <;> (try split) <;> simp
@[simp] theorem targetWrite_cpu_s (s : State) (a : Addr) (v : Byte) : (targetWrite s a v).cpu.s = s.cpu.s := by
  unfold targetWrite ramStore ppuTargetWrite apuTargetWrite mapperTargetWrite; split <;> (try split) <;> (try split) <;> simp
@[simp] theorem targetWrite_cpu_p (s : State) (a : Addr) (v : Byte) : (targetWrite s a v).cpu.p = s.cpu.p := by
  unfold targetWrite ramStore ppuTargetWrite apuTargetWrite mapperTargetWrite; split <;> (try split) <;> (try split) <;> simp
@[simp] theorem targetWrite_cpu_a (s : State) (a : Addr) (v : Byte) : (targetWrite s a v).cpu.a = s.cpu.a := by
  unfold targetWrite ramStore ppuTargetWrite apuTargetWrite mapperTargetWrite; split <;> (try split) <;> (try split) <;> simp
@[simp] theorem targetWrite_cpu_op (s : State) (a : Addr) (v : Byte) : (targetWrite s a v).cpu.op = s.cpu.op := by
  unfold targetWrite ramStore ppuTargetWrite apuTargetWrite mapperTargetWrite; split <;> (try split) <;> (try split) <;> simp
@[simp] theorem targetWrite_ppu_vblank (s : State) (a : Addr) (v : Byte) : (targetWrite s a v).ppu.vblank = s.ppu.vblank := by
  unfold targetWrite ramStore ppuTargetWrite apuTargetWrite mapperTargetWrite; split <;> (try split) <;> (try split) <;> simp
@[simp] theorem targetWrite_ext_cpuExec (s : State) (a : Addr) (v : Byte) : (targetWrite s a v).ext.cpuExec = s.ext.cpuExec := by
  unfold targetWrite ramStore ppuTargetWrite apuTargetWrite mapperTargetWrite; split <;> (try split) <;> (try split) <;> simp
@[simp] theorem targetWrite_ext_fullPpu (s : State) (a : Addr) (v : Byte) : (targetWrite s a v).ext.fullPpu = s.ext.fullPpu := by
  unfold targetWrite ramStore ppuTargetWrite apuTargetWrite mapperTargetWrite; split <;> (try split) <;> (try split) <;> simp
@[simp] theorem targetWrite_ext_widePpu (s : State) (a : Addr) (v : Byte) : (targetWrite s a v).ext.widePpu = s.ext.widePpu := by
  unfold targetWrite ramStore ppuTargetWrite apuTargetWrite mapperTargetWrite; split <;> (try split) <;> (try split) <;> simp
@[simp] theorem targetWrite_ext_apuIo (s : State) (a : Addr) (v : Byte) : (targetWrite s a v).ext.apuIo = s.ext.apuIo := by
  unfold targetWrite ramStore ppuTargetWrite apuTargetWrite mapperTargetWrite; split <;> (try split) <;> (try split) <;> simp
@[simp] theorem targetWrite_ext_cart (s : State) (a : Addr) (v : Byte) : (targetWrite s a v).ext.cart = s.ext.cart := by
  unfold targetWrite ramStore ppuTargetWrite apuTargetWrite mapperTargetWrite; split <;> (try split) <;> (try split) <;> simp
@[simp] theorem targetWrite_bus (s : State) (a : Addr) (v : Byte) : (targetWrite s a v).bus = s.bus := by
  unfold targetWrite ramStore ppuTargetWrite apuTargetWrite mapperTargetWrite; split <;> (try split) <;> (try split) <;> simp
@[simp] theorem targetWrite_ext_cpuSt (s : State) (a : Addr) (v : Byte) : (targetWrite s a v).ext.cpuSt = s.ext.cpuSt := by
  unfold targetWrite ramStore ppuTargetWrite apuTargetWrite mapperTargetWrite bankWrite cartLowWrite apuIoWrite ppuRegWrite
  split <;> (repeat' split) <;> simp
@[simp] theorem memWrite_ext_cpuSt (s : State) (a : Addr) (v : Byte) : (memWrite s a v).ext.cpuSt = s.ext.cpuSt := by
  simp [memWrite]
@[simp] theorem memWrite_edge (s : State) (a : Addr) (v : Byte) : (memWrite s a v).edge = s.edge := by
  simp [memWrite]
@[simp] theorem memWrite_arb (s : State) (a : Addr) (v : Byte) : (memWrite s a v).arb = s.arb := by
  simp [memWrite]
@[simp] theorem memWrite_sched (s : State) (a : Addr) (v : Byte) : (memWrite s a v).sched = s.sched := by
  simp [memWrite]
@[simp] theorem memWrite_host (s : State) (a : Addr) (v : Byte) : (memWrite s a v).host = s.host := by
  simp [memWrite]
@[simp] theorem memWrite_prg (s : State) (a : Addr) (v : Byte) : (memWrite s a v).prg = s.prg := by
  simp [memWrite]
@[simp] theorem memWrite_params (s : State) (a : Addr) (v : Byte) : (memWrite s a v).params = s.params := by
  simp [memWrite]
@[simp] theorem memWrite_cpu_pc (s : State) (a : Addr) (v : Byte) : (memWrite s a v).cpu.pc = s.cpu.pc := by
  simp [memWrite]
@[simp] theorem memWrite_cpu_s (s : State) (a : Addr) (v : Byte) : (memWrite s a v).cpu.s = s.cpu.s := by
  simp [memWrite]
@[simp] theorem memWrite_cpu_p (s : State) (a : Addr) (v : Byte) : (memWrite s a v).cpu.p = s.cpu.p := by
  simp [memWrite]
@[simp] theorem memWrite_cpu_a (s : State) (a : Addr) (v : Byte) : (memWrite s a v).cpu.a = s.cpu.a := by
  simp [memWrite]
@[simp] theorem memWrite_cpu_op (s : State) (a : Addr) (v : Byte) : (memWrite s a v).cpu.op = s.cpu.op := by
  simp [memWrite]
@[simp] theorem memWrite_ppu_vblank (s : State) (a : Addr) (v : Byte) : (memWrite s a v).ppu.vblank = s.ppu.vblank := by
  simp [memWrite]
@[simp] theorem memWrite_ext_cpuExec (s : State) (a : Addr) (v : Byte) : (memWrite s a v).ext.cpuExec = s.ext.cpuExec := by
  simp [memWrite]
@[simp] theorem memWrite_ext_fullPpu (s : State) (a : Addr) (v : Byte) : (memWrite s a v).ext.fullPpu = s.ext.fullPpu := by
  simp [memWrite]
@[simp] theorem memWrite_ext_widePpu (s : State) (a : Addr) (v : Byte) : (memWrite s a v).ext.widePpu = s.ext.widePpu := by
  simp [memWrite]
@[simp] theorem memWrite_ext_apuIo (s : State) (a : Addr) (v : Byte) : (memWrite s a v).ext.apuIo = s.ext.apuIo := by
  simp [memWrite]
@[simp] theorem memWrite_ext_cart (s : State) (a : Addr) (v : Byte) : (memWrite s a v).ext.cart = s.ext.cart := by
  simp [memWrite]
@[simp] theorem memWrite_bus (s : State) (a : Addr) (v : Byte) : (memWrite s a v).bus = { openBus := v } := by
  simp [memWrite, setOpenBus]

end Sys2Proof.Machine
end

