-- ==== Sys2Proof/Laws/PpuDot.lean ====
section
/-! SUPPORT. What one PPU dot leaves unchanged (R103): the CPU, the bus, RAM, PRG, PPUCTRL, PPUMASK, the latch and the enable, the
host side but for the working frame buffer. -/

namespace Sys2Proof.Machine

/-! The mapper's tick changes neither the latch nor the enable (R128). -/

@[simp] theorem countTick_latch (m : Mapper) : (countTick m).latch = m.latch := by
  unfold countTick; (repeat' split) <;> rfl
@[simp] theorem countTick_enabled (m : Mapper) : (countTick m).enabled = m.enabled := by
  unfold countTick; (repeat' split) <;> rfl
@[simp] theorem countTick_irqLine (m : Mapper) : (countTick m).irqLine = m.irqLine := by
  unfold countTick; (repeat' split) <;> rfl
@[simp] theorem mapperTick_latch (m : Mapper) : (mapperTick m).latch = m.latch := by
  unfold mapperTick; split <;> simp
@[simp] theorem mapperTick_enabled (m : Mapper) : (mapperTick m).enabled = m.enabled := by
  unfold mapperTick; split <;> simp

/-! `observe`. -/

@[simp] theorem observe_cpu (s : State) (p : PAddr) (l : Nat) : (observe s p l).cpu = s.cpu := by
  unfold observe tickState; simp only []; split <;> simp
@[simp] theorem observe_bus (s : State) (p : PAddr) (l : Nat) : (observe s p l).bus = s.bus := by
  unfold observe tickState; simp only []; split <;> simp
@[simp] theorem observe_ram (s : State) (p : PAddr) (l : Nat) : (observe s p l).ram = s.ram := by
  unfold observe tickState; simp only []; split <;> simp
@[simp] theorem observe_prg (s : State) (p : PAddr) (l : Nat) : (observe s p l).prg = s.prg := by
  unfold observe tickState; simp only []; split <;> simp
@[simp] theorem observe_params (s : State) (p : PAddr) (l : Nat) : (observe s p l).params = s.params := by
  unfold observe tickState; simp only []; split <;> simp
@[simp] theorem observe_mapper_latch (s : State) (p : PAddr) (l : Nat) : (observe s p l).mapper.latch = s.mapper.latch := by
  unfold observe tickState; simp only []; split <;> simp
@[simp] theorem observe_mapper_enabled (s : State) (p : PAddr) (l : Nat) : (observe s p l).mapper.enabled = s.mapper.enabled := by
  unfold observe tickState; simp only []; split <;> simp
@[simp] theorem observe_arb (s : State) (p : PAddr) (l : Nat) : (observe s p l).arb = s.arb := by
  unfold observe tickState; simp only []; split <;> simp
@[simp] theorem observe_sched (s : State) (p : PAddr) (l : Nat) : (observe s p l).sched = s.sched := by
  unfold observe tickState; simp only []; split <;> simp
@[simp] theorem observe_host (s : State) (p : PAddr) (l : Nat) : (observe s p l).host = s.host := by
  unfold observe tickState; simp only []; split <;> simp
@[simp] theorem observe_ext (s : State) (p : PAddr) (l : Nat) : (observe s p l).ext = s.ext := by
  unfold observe tickState; simp only []; split <;> simp
@[simp] theorem observe_ppu (s : State) (p : PAddr) (l : Nat) : (observe s p l).ppu = s.ppu := by
  unfold observe tickState; simp only []; split <;> simp

/-! `clearGate`. -/

@[simp] theorem clearGate_cpu (s : State) (d : Nat) : (clearGate s d).cpu = s.cpu := by
  unfold clearGate; split <;> simp
@[simp] theorem clearGate_bus (s : State) (d : Nat) : (clearGate s d).bus = s.bus := by
  unfold clearGate; split <;> simp
@[simp] theorem clearGate_ram (s : State) (d : Nat) : (clearGate s d).ram = s.ram := by
  unfold clearGate; split <;> simp
@[simp] theorem clearGate_prg (s : State) (d : Nat) : (clearGate s d).prg = s.prg := by
  unfold clearGate; split <;> simp
@[simp] theorem clearGate_params (s : State) (d : Nat) : (clearGate s d).params = s.params := by
  unfold clearGate; split <;> simp
@[simp] theorem clearGate_mapper (s : State) (d : Nat) : (clearGate s d).mapper = s.mapper := by
  unfold clearGate; split <;> simp
@[simp] theorem clearGate_arb (s : State) (d : Nat) : (clearGate s d).arb = s.arb := by
  unfold clearGate; split <;> simp
@[simp] theorem clearGate_sched (s : State) (d : Nat) : (clearGate s d).sched = s.sched := by
  unfold clearGate; split <;> simp
@[simp] theorem clearGate_host (s : State) (d : Nat) : (clearGate s d).host = s.host := by
  unfold clearGate; split <;> simp
@[simp] theorem clearGate_ext (s : State) (d : Nat) : (clearGate s d).ext = s.ext := by
  unfold clearGate; split <;> simp
@[simp] theorem clearGate_ppu (s : State) (d : Nat) : (clearGate s d).ppu = s.ppu := by
  unfold clearGate; split <;> simp

/-! `vblankUpdate`. -/

@[simp] theorem vblankUpdate_cpu (s : State) (l d : Nat) : (vblankUpdate s l d).cpu = s.cpu := by
  unfold vblankUpdate; (repeat' split) <;> simp
@[simp] theorem vblankUpdate_bus (s : State) (l d : Nat) : (vblankUpdate s l d).bus = s.bus := by
  unfold vblankUpdate; (repeat' split) <;> simp
@[simp] theorem vblankUpdate_ram (s : State) (l d : Nat) : (vblankUpdate s l d).ram = s.ram := by
  unfold vblankUpdate; (repeat' split) <;> simp
@[simp] theorem vblankUpdate_prg (s : State) (l d : Nat) : (vblankUpdate s l d).prg = s.prg := by
  unfold vblankUpdate; (repeat' split) <;> simp
@[simp] theorem vblankUpdate_params (s : State) (l d : Nat) : (vblankUpdate s l d).params = s.params := by
  unfold vblankUpdate; (repeat' split) <;> simp
@[simp] theorem vblankUpdate_ppu_ctrl (s : State) (l d : Nat) : (vblankUpdate s l d).ppu.ctrl = s.ppu.ctrl := by
  unfold vblankUpdate; (repeat' split) <;> simp
@[simp] theorem vblankUpdate_ppu_mask (s : State) (l d : Nat) : (vblankUpdate s l d).ppu.mask = s.ppu.mask := by
  unfold vblankUpdate; (repeat' split) <;> simp
@[simp] theorem vblankUpdate_mapper (s : State) (l d : Nat) : (vblankUpdate s l d).mapper = s.mapper := by
  unfold vblankUpdate; (repeat' split) <;> simp
@[simp] theorem vblankUpdate_edge (s : State) (l d : Nat) : (vblankUpdate s l d).edge = s.edge := by
  unfold vblankUpdate; (repeat' split) <;> simp
@[simp] theorem vblankUpdate_arb (s : State) (l d : Nat) : (vblankUpdate s l d).arb = s.arb := by
  unfold vblankUpdate; (repeat' split) <;> simp
@[simp] theorem vblankUpdate_sched (s : State) (l d : Nat) : (vblankUpdate s l d).sched = s.sched := by
  unfold vblankUpdate; (repeat' split) <;> simp
@[simp] theorem vblankUpdate_host (s : State) (l d : Nat) : (vblankUpdate s l d).host = s.host := by
  unfold vblankUpdate; (repeat' split) <;> simp
@[simp] theorem vblankUpdate_ext (s : State) (l d : Nat) : (vblankUpdate s l d).ext = s.ext := by
  unfold vblankUpdate; (repeat' split) <;> simp

/-! `renderDot`. -/

@[simp] theorem renderDot_cpu (s : State) (l d : Nat) : (renderDot s l d).cpu = s.cpu := by
  unfold renderDot; split <;> simp
@[simp] theorem renderDot_bus (s : State) (l d : Nat) : (renderDot s l d).bus = s.bus := by
  unfold renderDot; split <;> simp
@[simp] theorem renderDot_ram (s : State) (l d : Nat) : (renderDot s l d).ram = s.ram := by
  unfold renderDot; split <;> simp
@[simp] theorem renderDot_prg (s : State) (l d : Nat) : (renderDot s l d).prg = s.prg := by
  unfold renderDot; split <;> simp
@[simp] theorem renderDot_params (s : State) (l d : Nat) : (renderDot s l d).params = s.params := by
  unfold renderDot; split <;> simp
@[simp] theorem renderDot_host_frame (s : State) (l d : Nat) : (renderDot s l d).host.frame = s.host.frame := by
  unfold renderDot; split <;> simp
@[simp] theorem renderDot_host_resetDone (s : State) (l d : Nat) : (renderDot s l d).host.resetDone = s.host.resetDone := by
  unfold renderDot; split <;> simp
@[simp] theorem renderDot_host_closed (s : State) (l d : Nat) : (renderDot s l d).host.closed = s.host.closed := by
  unfold renderDot; split <;> simp
@[simp] theorem renderDot_host_fault (s : State) (l d : Nat) : (renderDot s l d).host.fault = s.host.fault := by
  unfold renderDot; split <;> simp
@[simp] theorem renderDot_host_reply (s : State) (l d : Nat) : (renderDot s l d).host.reply = s.host.reply := by
  unfold renderDot; split <;> simp
@[simp] theorem renderDot_host_inbox (s : State) (l d : Nat) : (renderDot s l d).host.inbox = s.host.inbox := by
  unfold renderDot; split <;> simp
@[simp] theorem renderDot_host_inStep (s : State) (l d : Nat) : (renderDot s l d).host.inStep = s.host.inStep := by
  unfold renderDot; split <;> simp
@[simp] theorem renderDot_ext_cpuExec (s : State) (l d : Nat) : (renderDot s l d).ext.cpuExec = s.ext.cpuExec := by
  unfold renderDot; split <;> simp
@[simp] theorem renderDot_ext_fullPpu (s : State) (l d : Nat) : (renderDot s l d).ext.fullPpu = s.ext.fullPpu := by
  unfold renderDot; split <;> simp
@[simp] theorem renderDot_ext_widePpu (s : State) (l d : Nat) : (renderDot s l d).ext.widePpu = s.ext.widePpu := by
  unfold renderDot; split <;> simp
@[simp] theorem renderDot_ext_apuIo (s : State) (l d : Nat) : (renderDot s l d).ext.apuIo = s.ext.apuIo := by
  unfold renderDot; split <;> simp
@[simp] theorem renderDot_ext_cart (s : State) (l d : Nat) : (renderDot s l d).ext.cart = s.ext.cart := by
  unfold renderDot; split <;> simp
@[simp] theorem renderDot_ext_cpuSt (s : State) (l d : Nat) : (renderDot s l d).ext.cpuSt = s.ext.cpuSt := by
  unfold renderDot; split <;> simp
@[simp] theorem renderDot_ext_apuSt (s : State) (l d : Nat) : (renderDot s l d).ext.apuSt = s.ext.apuSt := by
  unfold renderDot; split <;> simp
@[simp] theorem renderDot_ext_cartSt (s : State) (l d : Nat) : (renderDot s l d).ext.cartSt = s.ext.cartSt := by
  unfold renderDot; split <;> simp
@[simp] theorem renderDot_ext_bankSt (s : State) (l d : Nat) : (renderDot s l d).ext.bankSt = s.ext.bankSt := by
  unfold renderDot; split <;> simp
@[simp] theorem renderDot_mapper (s : State) (l d : Nat) : (renderDot s l d).mapper = s.mapper := by
  unfold renderDot; split <;> simp
@[simp] theorem renderDot_edge (s : State) (l d : Nat) : (renderDot s l d).edge = s.edge := by
  unfold renderDot; split <;> simp
@[simp] theorem renderDot_arb (s : State) (l d : Nat) : (renderDot s l d).arb = s.arb := by
  unfold renderDot; split <;> simp
@[simp] theorem renderDot_sched (s : State) (l d : Nat) : (renderDot s l d).sched = s.sched := by
  unfold renderDot; split <;> simp
@[simp] theorem renderDot_ppu (s : State) (l d : Nat) : (renderDot s l d).ppu = s.ppu := by
  unfold renderDot; split <;> simp

/-! `nmiSample`. -/

@[simp] theorem nmiSample_cpu (s : State) : (nmiSample s).cpu = s.cpu := by
  simp [nmiSample]
@[simp] theorem nmiSample_bus (s : State) : (nmiSample s).bus = s.bus := by
  simp [nmiSample]
@[simp] theorem nmiSample_ram (s : State) : (nmiSample s).ram = s.ram := by
  simp [nmiSample]
@[simp] theorem nmiSample_prg (s : State) : (nmiSample s).prg = s.prg := by
  simp [nmiSample]
@[simp] theorem nmiSample_params (s : State) : (nmiSample s).params = s.params := by
  simp [nmiSample]
@[simp] theorem nmiSample_mapper (s : State) : (nmiSample s).mapper = s.mapper := by
  simp [nmiSample]
@[simp] theorem nmiSample_edge (s : State) : (nmiSample s).edge = s.edge := by
  simp [nmiSample]
@[simp] theorem nmiSample_sched (s : State) : (nmiSample s).sched = s.sched := by
  simp [nmiSample]
@[simp] theorem nmiSample_host (s : State) : (nmiSample s).host = s.host := by
  simp [nmiSample]
@[simp] theorem nmiSample_ext (s : State) : (nmiSample s).ext = s.ext := by
  simp [nmiSample]
@[simp] theorem nmiSample_ppu (s : State) : (nmiSample s).ppu = s.ppu := by
  simp [nmiSample]

/-! `endFrame`. -/

@[simp] theorem endFrame_cpu (s : State) : (endFrame s).cpu = s.cpu := by
  simp [endFrame]
@[simp] theorem endFrame_bus (s : State) : (endFrame s).bus = s.bus := by
  simp [endFrame]
@[simp] theorem endFrame_ram (s : State) : (endFrame s).ram = s.ram := by
  simp [endFrame]
@[simp] theorem endFrame_prg (s : State) : (endFrame s).prg = s.prg := by
  simp [endFrame]
@[simp] theorem endFrame_params (s : State) : (endFrame s).params = s.params := by
  simp [endFrame]
@[simp] theorem endFrame_sched_cpuCycles (s : State) : (endFrame s).sched.cpuCycles = s.sched.cpuCycles := by
  simp [endFrame]
@[simp] theorem endFrame_sched_joypad (s : State) : (endFrame s).sched.joypad = s.sched.joypad := by
  simp [endFrame]
@[simp] theorem endFrame_mapper (s : State) : (endFrame s).mapper = s.mapper := by
  simp [endFrame]
@[simp] theorem endFrame_edge (s : State) : (endFrame s).edge = s.edge := by
  simp [endFrame]
@[simp] theorem endFrame_arb (s : State) : (endFrame s).arb = s.arb := by
  simp [endFrame]
@[simp] theorem endFrame_host (s : State) : (endFrame s).host = s.host := by
  simp [endFrame]
@[simp] theorem endFrame_ext (s : State) : (endFrame s).ext = s.ext := by
  simp [endFrame]
@[simp] theorem endFrame_ppu (s : State) : (endFrame s).ppu = s.ppu := by
  simp [endFrame]

/-! `frameEndUpdate`. -/

@[simp] theorem frameEndUpdate_cpu (s : State) (l d : Nat) : (frameEndUpdate s l d).cpu = s.cpu := by
  unfold frameEndUpdate; split <;> simp
@[simp] theorem frameEndUpdate_bus (s : State) (l d : Nat) : (frameEndUpdate s l d).bus = s.bus := by
  unfold frameEndUpdate; split <;> simp
@[simp] theorem frameEndUpdate_ram (s : State) (l d : Nat) : (frameEndUpdate s l d).ram = s.ram := by
  unfold frameEndUpdate; split <;> simp
@[simp] theorem frameEndUpdate_prg (s : State) (l d : Nat) : (frameEndUpdate s l d).prg = s.prg := by
  unfold frameEndUpdate; split <;> simp
@[simp] theorem frameEndUpdate_params (s : State) (l d : Nat) : (frameEndUpdate s l d).params = s.params := by
  unfold frameEndUpdate; split <;> simp
@[simp] theorem frameEndUpdate_sched_cpuCycles (s : State) (l d : Nat) : (frameEndUpdate s l d).sched.cpuCycles = s.sched.cpuCycles := by
  unfold frameEndUpdate; split <;> simp
@[simp] theorem frameEndUpdate_sched_joypad (s : State) (l d : Nat) : (frameEndUpdate s l d).sched.joypad = s.sched.joypad := by
  unfold frameEndUpdate; split <;> simp
@[simp] theorem frameEndUpdate_mapper (s : State) (l d : Nat) : (frameEndUpdate s l d).mapper = s.mapper := by
  unfold frameEndUpdate; split <;> simp
@[simp] theorem frameEndUpdate_edge (s : State) (l d : Nat) : (frameEndUpdate s l d).edge = s.edge := by
  unfold frameEndUpdate; split <;> simp
@[simp] theorem frameEndUpdate_arb (s : State) (l d : Nat) : (frameEndUpdate s l d).arb = s.arb := by
  unfold frameEndUpdate; split <;> simp
@[simp] theorem frameEndUpdate_host (s : State) (l d : Nat) : (frameEndUpdate s l d).host = s.host := by
  unfold frameEndUpdate; split <;> simp
@[simp] theorem frameEndUpdate_ext (s : State) (l d : Nat) : (frameEndUpdate s l d).ext = s.ext := by
  unfold frameEndUpdate; split <;> simp
@[simp] theorem frameEndUpdate_ppu (s : State) (l d : Nat) : (frameEndUpdate s l d).ppu = s.ppu := by
  unfold frameEndUpdate; split <;> simp

/-! `advance`. -/

@[simp] theorem advance_cpu (s : State) : (advance s).cpu = s.cpu := by
  unfold advance; (repeat' split) <;> simp
@[simp] theorem advance_bus (s : State) : (advance s).bus = s.bus := by
  unfold advance; (repeat' split) <;> simp
@[simp] theorem advance_ram (s : State) : (advance s).ram = s.ram := by
  unfold advance; (repeat' split) <;> simp
@[simp] theorem advance_prg (s : State) : (advance s).prg = s.prg := by
  unfold advance; (repeat' split) <;> simp
@[simp] theorem advance_params (s : State) : (advance s).params = s.params := by
  unfold advance; (repeat' split) <;> simp
@[simp] theorem advance_sched_cpuCycles (s : State) : (advance s).sched.cpuCycles = s.sched.cpuCycles := by
  unfold advance; (repeat' split) <;> simp
@[simp] theorem advance_sched_joypad (s : State) : (advance s).sched.joypad = s.sched.joypad := by
  unfold advance; (repeat' split) <;> simp
@[simp] theorem advance_mapper (s : State) : (advance s).mapper = s.mapper := by
  unfold advance; (repeat' split) <;> simp
@[simp] theorem advance_edge (s : State) : (advance s).edge = s.edge := by
  unfold advance; (repeat' split) <;> simp
@[simp] theorem advance_arb (s : State) : (advance s).arb = s.arb := by
  unfold advance; (repeat' split) <;> simp
@[simp] theorem advance_host (s : State) : (advance s).host = s.host := by
  unfold advance; (repeat' split) <;> simp
@[simp] theorem advance_ext (s : State) : (advance s).ext = s.ext := by
  unfold advance; (repeat' split) <;> simp
@[simp] theorem advance_ppu (s : State) : (advance s).ppu = s.ppu := by
  unfold advance; (repeat' split) <;> simp

/-! One dot (R103), and the three dots of a CPU cycle (R102). -/

@[simp] theorem dotDecode_cpu (s : State) (l d : Nat) : (dotDecode s l d).cpu = s.cpu := by
  simp [dotDecode]
@[simp] theorem dotDecode_bus (s : State) (l d : Nat) : (dotDecode s l d).bus = s.bus := by
  simp [dotDecode]
@[simp] theorem dotDecode_ram (s : State) (l d : Nat) : (dotDecode s l d).ram = s.ram := by
  simp [dotDecode]
@[simp] theorem dotDecode_prg (s : State) (l d : Nat) : (dotDecode s l d).prg = s.prg := by
  simp [dotDecode]
@[simp] theorem dotDecode_params (s : State) (l d : Nat) : (dotDecode s l d).params = s.params := by
  simp [dotDecode]
@[simp] theorem dotDecode_ppu_ctrl (s : State) (l d : Nat) : (dotDecode s l d).ppu.ctrl = s.ppu.ctrl := by
  simp [dotDecode]
@[simp] theorem dotDecode_ppu_mask (s : State) (l d : Nat) : (dotDecode s l d).ppu.mask = s.ppu.mask := by
  simp [dotDecode]
@[simp] theorem dotDecode_mapper_latch (s : State) (l d : Nat) : (dotDecode s l d).mapper.latch = s.mapper.latch := by
  simp [dotDecode]
@[simp] theorem dotDecode_mapper_enabled (s : State) (l d : Nat) : (dotDecode s l d).mapper.enabled = s.mapper.enabled := by
  simp [dotDecode]
@[simp] theorem dotDecode_host_frame (s : State) (l d : Nat) : (dotDecode s l d).host.frame = s.host.frame := by
  simp [dotDecode]
@[simp] theorem dotDecode_host_resetDone (s : State) (l d : Nat) : (dotDecode s l d).host.resetDone = s.host.resetDone := by
  simp [dotDecode]
@[simp] theorem dotDecode_host_closed (s : State) (l d : Nat) : (dotDecode s l d).host.closed = s.host.closed := by
  simp [dotDecode]
@[simp] theorem dotDecode_host_fault (s : State) (l d : Nat) : (dotDecode s l d).host.fault = s.host.fault := by
  simp [dotDecode]
@[simp] theorem dotDecode_host_reply (s : State) (l d : Nat) : (dotDecode s l d).host.reply = s.host.reply := by
  simp [dotDecode]
@[simp] theorem dotDecode_host_inbox (s : State) (l d : Nat) : (dotDecode s l d).host.inbox = s.host.inbox := by
  simp [dotDecode]
@[simp] theorem dotDecode_host_inStep (s : State) (l d : Nat) : (dotDecode s l d).host.inStep = s.host.inStep := by
  simp [dotDecode]
@[simp] theorem dotDecode_ext_cpuExec (s : State) (l d : Nat) : (dotDecode s l d).ext.cpuExec = s.ext.cpuExec := by
  simp [dotDecode]
@[simp] theorem dotDecode_ext_fullPpu (s : State) (l d : Nat) : (dotDecode s l d).ext.fullPpu = s.ext.fullPpu := by
  simp [dotDecode]
@[simp] theorem dotDecode_ext_widePpu (s : State) (l d : Nat) : (dotDecode s l d).ext.widePpu = s.ext.widePpu := by
  simp [dotDecode]
@[simp] theorem dotDecode_ext_apuIo (s : State) (l d : Nat) : (dotDecode s l d).ext.apuIo = s.ext.apuIo := by
  simp [dotDecode]
@[simp] theorem dotDecode_ext_cart (s : State) (l d : Nat) : (dotDecode s l d).ext.cart = s.ext.cart := by
  simp [dotDecode]
@[simp] theorem dotDecode_ext_cpuSt (s : State) (l d : Nat) : (dotDecode s l d).ext.cpuSt = s.ext.cpuSt := by
  simp [dotDecode]
@[simp] theorem dotDecode_ext_apuSt (s : State) (l d : Nat) : (dotDecode s l d).ext.apuSt = s.ext.apuSt := by
  simp [dotDecode]
@[simp] theorem dotDecode_ext_cartSt (s : State) (l d : Nat) : (dotDecode s l d).ext.cartSt = s.ext.cartSt := by
  simp [dotDecode]
@[simp] theorem dotDecode_ext_bankSt (s : State) (l d : Nat) : (dotDecode s l d).ext.bankSt = s.ext.bankSt := by
  simp [dotDecode]
@[simp] theorem dotDecode_sched_cpuCycles (s : State) (l d : Nat) : (dotDecode s l d).sched.cpuCycles = s.sched.cpuCycles := by
  simp [dotDecode]
@[simp] theorem dotDecode_sched_joypad (s : State) (l d : Nat) : (dotDecode s l d).sched.joypad = s.sched.joypad := by
  simp [dotDecode]
@[simp] theorem dotDecode_arb (s : State) (l d : Nat) : (dotDecode s l d).arb = s.arb := by
  simp [dotDecode]
@[simp] theorem dotDecode_sched (s : State) (l d : Nat) : (dotDecode s l d).sched = s.sched := by
  simp [dotDecode]
@[simp] theorem dotDecode_host (s : State) (l d : Nat) : (dotDecode s l d).host = s.host := by
  simp [dotDecode]
@[simp] theorem dotDecode_ext (s : State) (l d : Nat) : (dotDecode s l d).ext = s.ext := by
  simp [dotDecode]
@[simp] theorem dotDecode_ppu (s : State) (l d : Nat) : (dotDecode s l d).ppu = s.ppu := by
  simp [dotDecode]
@[simp] theorem wholeDot_cpu (s : State) : (wholeDot s).cpu = s.cpu := by
  simp [wholeDot]
@[simp] theorem wholeDot_bus (s : State) : (wholeDot s).bus = s.bus := by
  simp [wholeDot]
@[simp] theorem wholeDot_ram (s : State) : (wholeDot s).ram = s.ram := by
  simp [wholeDot]
@[simp] theorem wholeDot_prg (s : State) : (wholeDot s).prg = s.prg := by
  simp [wholeDot]
@[simp] theorem wholeDot_params (s : State) : (wholeDot s).params = s.params := by
  simp [wholeDot]
@[simp] theorem wholeDot_ppu_ctrl (s : State) : (wholeDot s).ppu.ctrl = s.ppu.ctrl := by
  simp [wholeDot]
@[simp] theorem wholeDot_ppu_mask (s : State) : (wholeDot s).ppu.mask = s.ppu.mask := by
  simp [wholeDot]
@[simp] theorem wholeDot_mapper_latch (s : State) : (wholeDot s).mapper.latch = s.mapper.latch := by
  simp [wholeDot]
@[simp] theorem wholeDot_mapper_enabled (s : State) : (wholeDot s).mapper.enabled = s.mapper.enabled := by
  simp [wholeDot]
@[simp] theorem wholeDot_host_frame (s : State) : (wholeDot s).host.frame = s.host.frame := by
  simp [wholeDot]
@[simp] theorem wholeDot_host_resetDone (s : State) : (wholeDot s).host.resetDone = s.host.resetDone := by
  simp [wholeDot]
@[simp] theorem wholeDot_host_closed (s : State) : (wholeDot s).host.closed = s.host.closed := by
  simp [wholeDot]
@[simp] theorem wholeDot_host_fault (s : State) : (wholeDot s).host.fault = s.host.fault := by
  simp [wholeDot]
@[simp] theorem wholeDot_host_reply (s : State) : (wholeDot s).host.reply = s.host.reply := by
  simp [wholeDot]
@[simp] theorem wholeDot_host_inbox (s : State) : (wholeDot s).host.inbox = s.host.inbox := by
  simp [wholeDot]
@[simp] theorem wholeDot_host_inStep (s : State) : (wholeDot s).host.inStep = s.host.inStep := by
  simp [wholeDot]
@[simp] theorem wholeDot_ext_cpuExec (s : State) : (wholeDot s).ext.cpuExec = s.ext.cpuExec := by
  simp [wholeDot]
@[simp] theorem wholeDot_ext_fullPpu (s : State) : (wholeDot s).ext.fullPpu = s.ext.fullPpu := by
  simp [wholeDot]
@[simp] theorem wholeDot_ext_widePpu (s : State) : (wholeDot s).ext.widePpu = s.ext.widePpu := by
  simp [wholeDot]
@[simp] theorem wholeDot_ext_apuIo (s : State) : (wholeDot s).ext.apuIo = s.ext.apuIo := by
  simp [wholeDot]
@[simp] theorem wholeDot_ext_cart (s : State) : (wholeDot s).ext.cart = s.ext.cart := by
  simp [wholeDot]
@[simp] theorem wholeDot_ext_cpuSt (s : State) : (wholeDot s).ext.cpuSt = s.ext.cpuSt := by
  simp [wholeDot]
@[simp] theorem wholeDot_ext_apuSt (s : State) : (wholeDot s).ext.apuSt = s.ext.apuSt := by
  simp [wholeDot]
@[simp] theorem wholeDot_ext_cartSt (s : State) : (wholeDot s).ext.cartSt = s.ext.cartSt := by
  simp [wholeDot]
@[simp] theorem wholeDot_ext_bankSt (s : State) : (wholeDot s).ext.bankSt = s.ext.bankSt := by
  simp [wholeDot]
@[simp] theorem wholeDot_sched_cpuCycles (s : State) : (wholeDot s).sched.cpuCycles = s.sched.cpuCycles := by
  simp [wholeDot]
@[simp] theorem wholeDot_sched_joypad (s : State) : (wholeDot s).sched.joypad = s.sched.joypad := by
  simp [wholeDot]
/-! A dot that may be stopped (R94, R250): it is halted, stops at the decoder, or is a whole dot. -/

/-- The three ways a dot goes. -/
theorem ppuDot_cases (s : State) :
    (halted s = true ∧ ppuDot s = s) ∨
    (halted s = false ∧ tooWide (currentWord s) = true ∧
      ppuDot s = raisePpuAddrWidth (dotDecode s s.sched.line s.sched.dot) (currentWord s)) ∨
    (halted s = false ∧ tooWide (currentWord s) = false ∧ ppuDot s = wholeDot s) := by
  unfold ppuDot
  cases h : halted s <;> cases w : tooWide (currentWord s) <;> simp

@[simp] theorem ppuDot_cpu (s : State) : (ppuDot s).cpu = s.cpu := by
  rcases ppuDot_cases s with ⟨-, h⟩ | ⟨-, -, h⟩ | ⟨-, -, h⟩ <;> simp [h, raisePpuAddrWidth, raiseFault]
@[simp] theorem ppuDot_bus (s : State) : (ppuDot s).bus = s.bus := by
  rcases ppuDot_cases s with ⟨-, h⟩ | ⟨-, -, h⟩ | ⟨-, -, h⟩ <;> simp [h, raisePpuAddrWidth, raiseFault]
@[simp] theorem ppuDot_ram (s : State) : (ppuDot s).ram = s.ram := by
  rcases ppuDot_cases s with ⟨-, h⟩ | ⟨-, -, h⟩ | ⟨-, -, h⟩ <;> simp [h, raisePpuAddrWidth, raiseFault]
@[simp] theorem ppuDot_prg (s : State) : (ppuDot s).prg = s.prg := by
  rcases ppuDot_cases s with ⟨-, h⟩ | ⟨-, -, h⟩ | ⟨-, -, h⟩ <;> simp [h, raisePpuAddrWidth, raiseFault]
@[simp] theorem ppuDot_params (s : State) : (ppuDot s).params = s.params := by
  rcases ppuDot_cases s with ⟨-, h⟩ | ⟨-, -, h⟩ | ⟨-, -, h⟩ <;> simp [h, raisePpuAddrWidth, raiseFault]
@[simp] theorem ppuDot_ppu_ctrl (s : State) : (ppuDot s).ppu.ctrl = s.ppu.ctrl := by
  rcases ppuDot_cases s with ⟨-, h⟩ | ⟨-, -, h⟩ | ⟨-, -, h⟩ <;> simp [h, raisePpuAddrWidth, raiseFault]
@[simp] theorem ppuDot_ppu_mask (s : State) : (ppuDot s).ppu.mask = s.ppu.mask := by
  rcases ppuDot_cases s with ⟨-, h⟩ | ⟨-, -, h⟩ | ⟨-, -, h⟩ <;> simp [h, raisePpuAddrWidth, raiseFault]
@[simp] theorem ppuDot_mapper_latch (s : State) : (ppuDot s).mapper.latch = s.mapper.latch := by
  rcases ppuDot_cases s with ⟨-, h⟩ | ⟨-, -, h⟩ | ⟨-, -, h⟩ <;> simp [h, raisePpuAddrWidth, raiseFault]
@[simp] theorem ppuDot_mapper_enabled (s : State) : (ppuDot s).mapper.enabled = s.mapper.enabled := by
  rcases ppuDot_cases s with ⟨-, h⟩ | ⟨-, -, h⟩ | ⟨-, -, h⟩ <;> simp [h, raisePpuAddrWidth, raiseFault]
@[simp] theorem ppuDot_host_frame (s : State) : (ppuDot s).host.frame = s.host.frame := by
  rcases ppuDot_cases s with ⟨-, h⟩ | ⟨-, -, h⟩ | ⟨-, -, h⟩ <;> simp [h, raisePpuAddrWidth, raiseFault]
@[simp] theorem ppuDot_host_resetDone (s : State) : (ppuDot s).host.resetDone = s.host.resetDone := by
  rcases ppuDot_cases s with ⟨-, h⟩ | ⟨-, -, h⟩ | ⟨-, -, h⟩ <;> simp [h, raisePpuAddrWidth, raiseFault]
@[simp] theorem ppuDot_host_closed (s : State) : (ppuDot s).host.closed = s.host.closed := by
  rcases ppuDot_cases s with ⟨-, h⟩ | ⟨-, -, h⟩ | ⟨-, -, h⟩ <;> simp [h, raisePpuAddrWidth, raiseFault]
@[simp] theorem ppuDot_host_inbox (s : State) : (ppuDot s).host.inbox = s.host.inbox := by
  rcases ppuDot_cases s with ⟨-, h⟩ | ⟨-, -, h⟩ | ⟨-, -, h⟩ <;> simp [h, raisePpuAddrWidth, raiseFault]
@[simp] theorem ppuDot_host_inStep (s : State) : (ppuDot s).host.inStep = s.host.inStep := by
  rcases ppuDot_cases s with ⟨-, h⟩ | ⟨-, -, h⟩ | ⟨-, -, h⟩ <;> simp [h, raisePpuAddrWidth, raiseFault]
@[simp] theorem ppuDot_ext_cpuExec (s : State) : (ppuDot s).ext.cpuExec = s.ext.cpuExec := by
  rcases ppuDot_cases s with ⟨-, h⟩ | ⟨-, -, h⟩ | ⟨-, -, h⟩ <;> simp [h, raisePpuAddrWidth, raiseFault]
@[simp] theorem ppuDot_ext_fullPpu (s : State) : (ppuDot s).ext.fullPpu = s.ext.fullPpu := by
  rcases ppuDot_cases s with ⟨-, h⟩ | ⟨-, -, h⟩ | ⟨-, -, h⟩ <;> simp [h, raisePpuAddrWidth, raiseFault]
@[simp] theorem ppuDot_ext_widePpu (s : State) : (ppuDot s).ext.widePpu = s.ext.widePpu := by
  rcases ppuDot_cases s with ⟨-, h⟩ | ⟨-, -, h⟩ | ⟨-, -, h⟩ <;> simp [h, raisePpuAddrWidth, raiseFault]
@[simp] theorem ppuDot_ext_apuIo (s : State) : (ppuDot s).ext.apuIo = s.ext.apuIo := by
  rcases ppuDot_cases s with ⟨-, h⟩ | ⟨-, -, h⟩ | ⟨-, -, h⟩ <;> simp [h, raisePpuAddrWidth, raiseFault]
@[simp] theorem ppuDot_ext_cart (s : State) : (ppuDot s).ext.cart = s.ext.cart := by
  rcases ppuDot_cases s with ⟨-, h⟩ | ⟨-, -, h⟩ | ⟨-, -, h⟩ <;> simp [h, raisePpuAddrWidth, raiseFault]
@[simp] theorem ppuDot_ext_cpuSt (s : State) : (ppuDot s).ext.cpuSt = s.ext.cpuSt := by
  rcases ppuDot_cases s with ⟨-, h⟩ | ⟨-, -, h⟩ | ⟨-, -, h⟩ <;> simp [h, raisePpuAddrWidth, raiseFault]
@[simp] theorem ppuDot_ext_apuSt (s : State) : (ppuDot s).ext.apuSt = s.ext.apuSt := by
  rcases ppuDot_cases s with ⟨-, h⟩ | ⟨-, -, h⟩ | ⟨-, -, h⟩ <;> simp [h, raisePpuAddrWidth, raiseFault]
@[simp] theorem ppuDot_ext_cartSt (s : State) : (ppuDot s).ext.cartSt = s.ext.cartSt := by
  rcases ppuDot_cases s with ⟨-, h⟩ | ⟨-, -, h⟩ | ⟨-, -, h⟩ <;> simp [h, raisePpuAddrWidth, raiseFault]
@[simp] theorem ppuDot_ext_bankSt (s : State) : (ppuDot s).ext.bankSt = s.ext.bankSt := by
  rcases ppuDot_cases s with ⟨-, h⟩ | ⟨-, -, h⟩ | ⟨-, -, h⟩ <;> simp [h, raisePpuAddrWidth, raiseFault]
@[simp] theorem ppuDot_sched_cpuCycles (s : State) : (ppuDot s).sched.cpuCycles = s.sched.cpuCycles := by
  rcases ppuDot_cases s with ⟨-, h⟩ | ⟨-, -, h⟩ | ⟨-, -, h⟩ <;> simp [h, raisePpuAddrWidth, raiseFault]
@[simp] theorem ppuDot_sched_joypad (s : State) : (ppuDot s).sched.joypad = s.sched.joypad := by
  rcases ppuDot_cases s with ⟨-, h⟩ | ⟨-, -, h⟩ | ⟨-, -, h⟩ <;> simp [h, raisePpuAddrWidth, raiseFault]

/-! An unstopped instance (R94): every dot is a whole dot. -/

/-- Holding a word of 14 bits to the fetched classes leaves it one (R94). -/
theorem fetchWord_narrow (b : Bool) (w : BitVec 16) : (fetchWord b (w &&& 0x3FFF)).toNat < 0x4000 := by
  have h : (w &&& 0x3FFF#16).toNat < 2 ^ 14 := by
    rw [BitVec.toNat_and]; exact Nat.lt_of_le_of_lt Nat.and_le_right (by decide)
  cases b <;> simp only [fetchWord, Bool.false_eq_true, if_false, if_true, BitVec.toNat_or]
  · rw [BitVec.toNat_and]; exact Nat.lt_of_le_of_lt Nat.and_le_left h
  · have h' : (w &&& 0x3FFF#16 &&& 0xDFFF#16).toNat < 2 ^ 14 := by
      rw [BitVec.toNat_and]; exact Nat.lt_of_le_of_lt Nat.and_le_left h
    exact Nat.or_lt_two_pow h' (by decide)

/-- A word of 14 bits is not too wide. -/
theorem currentWord_narrow (s : State) (h : (s.ext.fullPpu && s.ext.widePpu) = false) : tooWide (currentWord s) = false := by
  have hw : (currentWord s).toNat < 0x4000 := by
    unfold currentWord ppuBusWord
    (repeat' split)
    · rename_i hf
      have hn : s.ext.widePpu = false := by simpa [hf] using h
      simp only [engineWord, hn, Bool.false_eq_true, if_false]
      exact fetchWord_narrow _ _
    · have := (scheduleAddr s s.sched.line s.sched.dot).isLt
      simp only [BitVec.toNat_setWidth]
      omega
    · decide
  simpa [tooWide] using hw

theorem unstopped_iff (s : State) : unstopped s = true ↔ s.host.fault = none ∧ (s.ext.fullPpu && s.ext.widePpu) = false := by
  cases hf : s.ext.fullPpu <;> cases hw : s.ext.widePpu <;> simp [unstopped, halted, hf, hw]

theorem halted_of_unstopped {s : State} (h : unstopped s = true) : halted s = false := by
  simp [unstopped] at h; exact h.1

/-- Being unstopped depends on the fault and the parameters alone. -/
theorem unstopped_congr {s t : State} (h1 : t.host.fault = s.host.fault) (h2 : t.ext.fullPpu = s.ext.fullPpu)
    (h3 : t.ext.widePpu = s.ext.widePpu) : unstopped t = unstopped s := by
  simp [unstopped, halted, h1, h2, h3]

theorem ppuDot_unstopped {s : State} (h : unstopped s = true) : ppuDot s = wholeDot s := by
  have hw := currentWord_narrow s ((unstopped_iff s).1 h).2
  rw [ppuDot, if_neg (by simp [halted_of_unstopped h]), if_neg (by simp [hw])]

theorem unstopped_ppuDot {s : State} (h : unstopped s = true) : unstopped (ppuDot s) = true := by
  rw [unstopped_congr (s := s) (by rw [ppuDot_unstopped h]; simp) (by simp) (by simp)]; exact h

/-- A halted instance performs no dot (R250). -/
theorem ppuDot_halted {s : State} (h : halted s = true) : ppuDot s = s := by rw [ppuDot, if_pos h]

theorem ppuDot_host_fault {s : State} (h : unstopped s = true) : (ppuDot s).host.fault = s.host.fault := by
  rw [ppuDot_unstopped h]; simp
theorem ppuDot_host_reply {s : State} (h : unstopped s = true) : (ppuDot s).host.reply = s.host.reply := by
  rw [ppuDot_unstopped h]; simp

@[simp] theorem threeDots_cpu (s : State) : (threeDots s).cpu = s.cpu := by
  simp [threeDots]
@[simp] theorem threeDots_bus (s : State) : (threeDots s).bus = s.bus := by
  simp [threeDots]
@[simp] theorem threeDots_ram (s : State) : (threeDots s).ram = s.ram := by
  simp [threeDots]
@[simp] theorem threeDots_prg (s : State) : (threeDots s).prg = s.prg := by
  simp [threeDots]
@[simp] theorem threeDots_params (s : State) : (threeDots s).params = s.params := by
  simp [threeDots]
@[simp] theorem threeDots_ppu_ctrl (s : State) : (threeDots s).ppu.ctrl = s.ppu.ctrl := by
  simp [threeDots]
@[simp] theorem threeDots_ppu_mask (s : State) : (threeDots s).ppu.mask = s.ppu.mask := by
  simp [threeDots]
@[simp] theorem threeDots_mapper_latch (s : State) : (threeDots s).mapper.latch = s.mapper.latch := by
  simp [threeDots]
@[simp] theorem threeDots_mapper_enabled (s : State) : (threeDots s).mapper.enabled = s.mapper.enabled := by
  simp [threeDots]
@[simp] theorem threeDots_host_frame (s : State) : (threeDots s).host.frame = s.host.frame := by
  simp [threeDots]
@[simp] theorem threeDots_host_resetDone (s : State) : (threeDots s).host.resetDone = s.host.resetDone := by
  simp [threeDots]
@[simp] theorem threeDots_host_closed (s : State) : (threeDots s).host.closed = s.host.closed := by
  simp [threeDots]
@[simp] theorem threeDots_host_inbox (s : State) : (threeDots s).host.inbox = s.host.inbox := by
  simp [threeDots]
@[simp] theorem threeDots_host_inStep (s : State) : (threeDots s).host.inStep = s.host.inStep := by
  simp [threeDots]
@[simp] theorem threeDots_ext_cpuExec (s : State) : (threeDots s).ext.cpuExec = s.ext.cpuExec := by
  simp [threeDots]
@[simp] theorem threeDots_ext_fullPpu (s : State) : (threeDots s).ext.fullPpu = s.ext.fullPpu := by
  simp [threeDots]
@[simp] theorem threeDots_ext_widePpu (s : State) : (threeDots s).ext.widePpu = s.ext.widePpu := by
  simp [threeDots]
@[simp] theorem threeDots_ext_apuIo (s : State) : (threeDots s).ext.apuIo = s.ext.apuIo := by
  simp [threeDots]
@[simp] theorem threeDots_ext_cart (s : State) : (threeDots s).ext.cart = s.ext.cart := by
  simp [threeDots]
@[simp] theorem threeDots_ext_cpuSt (s : State) : (threeDots s).ext.cpuSt = s.ext.cpuSt := by
  simp [threeDots]
@[simp] theorem threeDots_ext_apuSt (s : State) : (threeDots s).ext.apuSt = s.ext.apuSt := by
  simp [threeDots]
@[simp] theorem threeDots_ext_cartSt (s : State) : (threeDots s).ext.cartSt = s.ext.cartSt := by
  simp [threeDots]
@[simp] theorem threeDots_ext_bankSt (s : State) : (threeDots s).ext.bankSt = s.ext.bankSt := by
  simp [threeDots]
@[simp] theorem threeDots_sched_cpuCycles (s : State) : (threeDots s).sched.cpuCycles = s.sched.cpuCycles := by
  simp [threeDots]
@[simp] theorem threeDots_sched_joypad (s : State) : (threeDots s).sched.joypad = s.sched.joypad := by
  simp [threeDots]

theorem unstopped_threeDots {s : State} (h : unstopped s = true) : unstopped (threeDots s) = true :=
  unstopped_ppuDot (unstopped_ppuDot (unstopped_ppuDot h))
theorem threeDots_halted {s : State} (h : halted s = true) : threeDots s = s := by simp [threeDots, ppuDot_halted h]
theorem threeDots_host_fault {s : State} (h : unstopped s = true) : (threeDots s).host.fault = s.host.fault := by
  rw [threeDots, ppuDot_host_fault (unstopped_ppuDot (unstopped_ppuDot h)), ppuDot_host_fault (unstopped_ppuDot h), ppuDot_host_fault h]
theorem threeDots_host_reply {s : State} (h : unstopped s = true) : (threeDots s).host.reply = s.host.reply := by
  rw [threeDots, ppuDot_host_reply (unstopped_ppuDot (unstopped_ppuDot h)), ppuDot_host_reply (unstopped_ppuDot h), ppuDot_host_reply h]

end Sys2Proof.Machine
end

