-- ==== Sys2Proof/Laws/Stack.lean ====
section
/-! SUPPORT. Everything a stack access, a fetch from RAM or PRG, and one cycle of taking an interrupt or returning from one can do
(R58, R141, R144, R165, R166, R178). -/

namespace Sys2Proof.Machine

/-- The stack lies in the RAM window (R58). -/
theorem stackAddr_toNat (x : Byte) : (stackAddr x).toNat = 256 + x.toNat := by
  rw [stackAddr, joinBytes_toNat]
  rfl

/-- The stack's RAM bytes (R58). -/
theorem ramIndex_stackAddr (x : Byte) : ramIndex (stackAddr x) = 256 + x.toNat := by
  have := x.isLt
  rw [ramIndex, stackAddr_toNat, Config.ramBytes]
  omega

/-- The bytes at $0000 to $1FFF are RAM (R140). -/
theorem route_ram (read : Bool) (a : Addr) (h : a.toNat ≤ 0x1FFF) : route read a = .ram := by
  simp [route, h]

/-- The bytes read at $8000 and above are PRG (R140). -/
theorem route_prg (a : Addr) (h : 0x8000 ≤ a.toNat) : route true a = .cartPrg := by
  unfold route
  rw [if_neg (by omega), if_neg (by omega), if_neg (by omega), if_neg (by omega)]
  simp

/-- A write in $C000-$FFFF goes to the Mapper IRQ unit (R140). -/
theorem route_mapper (a : Addr) (h : 0xC000 ≤ a.toNat) : route false a = .mapperIrq := by
  unfold route
  rw [if_neg (by omega), if_neg (by omega), if_neg (by omega), if_neg (by omega), if_neg (by omega)]
  simp

/-- A RAM read drives the bus and changes only the latch (R141, R146). -/
theorem memRead_of_ram (s : State) (a : Addr) (h : a.toNat ≤ 0x1FFF) :
    memRead s a = (ramLoad s a, setOpenBus s (ramLoad s a)) := by
  simp [memRead, targetRead, route_ram true a h, finishRead]

/-- A PRG read drives the bus and changes only the latch (R144, R146). -/
theorem memRead_of_prg (s : State) (a : Addr) (h : 0x8000 ≤ a.toNat) :
    memRead s a = (prgRead s a, setOpenBus s (prgRead s a)) := by
  simp [memRead, targetRead, route_prg a h, finishRead]

/-- A RAM write changes the latch and that byte (R141, R147). -/
theorem memWrite_of_ram (s : State) (a : Addr) (v : Byte) (h : a.toNat ≤ 0x1FFF) :
    memWrite s a v = ramStore (setOpenBus s v) a v := by
  simp [memWrite, targetWrite, route_ram false a h]

/-- A write in $C000-$FFFF changes the latch and the mapper (R120, R147). -/
theorem memWrite_of_mapper (s : State) (a : Addr) (v : Byte) (h : 0xC000 ≤ a.toNat) :
    memWrite s a v = mapperTargetWrite (setOpenBus s v) a v := by
  simp [memWrite, targetWrite, route_mapper a h]

/-- Everything a push does (R166). -/
theorem push_eq (s : State) (v : Byte) :
    push s v = setS (setRam (setOpenBus s v) (sparseWrite s.ram (256 + s.cpu.s.toNat) v)) (s.cpu.s - 1) := by
  have h : (stackAddr s.cpu.s).toNat ≤ 0x1FFF := by
    have := s.cpu.s.isLt
    rw [stackAddr_toNat]
    omega
  simp only [push, memWrite_of_ram s _ v h, ramStore, ramIndex_stackAddr]
  rfl

/-- Everything a pull does (R166). -/
theorem pull_eq (s : State) :
    pull s = (sparseRead s.ram (256 + (s.cpu.s + 1).toNat),
      setOpenBus (setS s (s.cpu.s + 1)) (sparseRead s.ram (256 + (s.cpu.s + 1).toNat))) := by
  have h : (stackAddr (s.cpu.s + 1)).toNat ≤ 0x1FFF := by
    have := (s.cpu.s + 1).isLt
    rw [stackAddr_toNat]
    omega
  simp only [pull, memRead_of_ram _ _ h, ramLoad, ramIndex_stackAddr]
  rfl

/-- Everything the dummy read of the stack does (R177, R178). -/
theorem dummyStackRead_eq (s : State) :
    dummyStackRead s = setOpenBus s (sparseRead s.ram (256 + s.cpu.s.toNat)) := by
  have h : (stackAddr s.cpu.s).toNat ≤ 0x1FFF := by
    have := s.cpu.s.isLt
    rw [stackAddr_toNat]
    omega
  simp only [dummyStackRead, memRead_of_ram _ _ h, ramLoad, ramIndex_stackAddr]

/-- A vector read takes its byte from PRG, at the vector and the address after it (R57, R165). -/
theorem memRead_of_vector (s : State) (a : Addr) (h : 0xC000 ≤ a.toNat) :
    memRead s a = (prgRead s a, setOpenBus s (prgRead s a)) :=
  memRead_of_prg s a (by omega)

/-- What `prg_read` answers depends on the collaborators and the image alone (R144). -/
theorem prgRead_congr (s t : State) (a : Addr) (hx : t.ext.cart = s.ext.cart) (hb : t.ext.bankSt = s.ext.bankSt)
    (hp : t.prg = s.prg) : prgRead t a = prgRead s a := by
  simp [prgRead, hx, hb, hp]

end Sys2Proof.Machine
end

