-- ==== Sys2Proof/Laws/Cpu.lean ====
section
/-! SUPPORT. What the timed cycle and the CPU's shared accesses leave, field by field (R100, R102, R160). -/

namespace Sys2Proof.Machine

/-! The cycle count (R102). -/

@[simp] theorem countCycle_mapper (s : State) : (countCycle s).mapper = s.mapper := rfl
@[simp] theorem countCycle_edge (s : State) : (countCycle s).edge = s.edge := rfl
@[simp] theorem countCycle_arb (s : State) : (countCycle s).arb = s.arb := rfl
@[simp] theorem countCycle_bus (s : State) : (countCycle s).bus = s.bus := rfl
@[simp] theorem countCycle_cpu (s : State) : (countCycle s).cpu = s.cpu := rfl
@[simp] theorem countCycle_ppu (s : State) : (countCycle s).ppu = s.ppu := rfl
@[simp] theorem countCycle_host (s : State) : (countCycle s).host = s.host := rfl
@[simp] theorem countCycle_ext (s : State) : (countCycle s).ext = s.ext := rfl
@[simp] theorem countCycle_ram (s : State) : (countCycle s).ram = s.ram := rfl
@[simp] theorem countCycle_prg (s : State) : (countCycle s).prg = s.prg := rfl
@[simp] theorem countCycle_params (s : State) : (countCycle s).params = s.params := rfl
@[simp] theorem countCycle_sched_line (s : State) : (countCycle s).sched.line = s.sched.line := rfl
@[simp] theorem countCycle_sched_dot (s : State) : (countCycle s).sched.dot = s.sched.dot := rfl
@[simp] theorem countCycle_sched_oddFrame (s : State) : (countCycle s).sched.oddFrame = s.sched.oddFrame := rfl
@[simp] theorem countCycle_sched_frameDone (s : State) : (countCycle s).sched.frameDone = s.sched.frameDone := rfl
@[simp] theorem countCycle_sched_joypad (s : State) : (countCycle s).sched.joypad = s.sched.joypad := rfl
@[simp] theorem countCycle_sched_cpuCycles (s : State) : (countCycle s).sched.cpuCycles = s.sched.cpuCycles + 1 := rfl

/-! A timed cycle is the action after three dots (R100). -/

/-- A timed cycle of an unstopped instance. -/
theorem timed_eq (next : Op) (f : State → State) {s : State} (h : unstopped s = true) :
    timed next f s = setOp (countCycle (f (threeDots s))) next := by
  rw [timed, unlessHalted, if_neg (by simp [halted_of_unstopped (unstopped_threeDots h)])]

/-- A halted instance performs no timed cycle (R250). -/
theorem timed_halted (next : Op) (f : State → State) {s : State} (h : halted s = true) : timed next f s = s := by
  rw [timed, threeDots_halted h, unlessHalted, if_pos h]

/-! A fetch and a dummy read change the CPU by the advance of `C.PC` alone (R180). -/

@[simp] theorem fetchByte_mapper (s : State) : (fetchByte s).2.mapper = s.mapper := by simp [fetchByte]
@[simp] theorem fetchByte_edge (s : State) : (fetchByte s).2.edge = s.edge := by simp [fetchByte]
@[simp] theorem fetchByte_arb (s : State) : (fetchByte s).2.arb = s.arb := by simp [fetchByte]
@[simp] theorem fetchByte_sched (s : State) : (fetchByte s).2.sched = s.sched := by simp [fetchByte]
@[simp] theorem fetchByte_host (s : State) : (fetchByte s).2.host = s.host := by simp [fetchByte]
@[simp] theorem fetchByte_ram (s : State) : (fetchByte s).2.ram = s.ram := by simp [fetchByte]
@[simp] theorem fetchByte_prg (s : State) : (fetchByte s).2.prg = s.prg := by simp [fetchByte]
@[simp] theorem fetchByte_params (s : State) : (fetchByte s).2.params = s.params := by simp [fetchByte]
@[simp] theorem fetchByte_ppu_ctrl (s : State) : (fetchByte s).2.ppu.ctrl = s.ppu.ctrl := by simp [fetchByte]
@[simp] theorem fetchByte_ppu_mask (s : State) : (fetchByte s).2.ppu.mask = s.ppu.mask := by simp [fetchByte]
@[simp] theorem fetchByte_ext_cpuExec (s : State) : (fetchByte s).2.ext.cpuExec = s.ext.cpuExec := by simp [fetchByte]
@[simp] theorem fetchByte_ext_fullPpu (s : State) : (fetchByte s).2.ext.fullPpu = s.ext.fullPpu := by simp [fetchByte]
@[simp] theorem fetchByte_ext_widePpu (s : State) : (fetchByte s).2.ext.widePpu = s.ext.widePpu := by simp [fetchByte]
@[simp] theorem fetchByte_ext_apuIo (s : State) : (fetchByte s).2.ext.apuIo = s.ext.apuIo := by simp [fetchByte]
@[simp] theorem fetchByte_ext_cart (s : State) : (fetchByte s).2.ext.cart = s.ext.cart := by simp [fetchByte]
@[simp] theorem fetchByte_cpu_s (s : State) : (fetchByte s).2.cpu.s = s.cpu.s := by simp [fetchByte]
@[simp] theorem fetchByte_cpu_p (s : State) : (fetchByte s).2.cpu.p = s.cpu.p := by simp [fetchByte]
@[simp] theorem fetchByte_cpu_a (s : State) : (fetchByte s).2.cpu.a = s.cpu.a := by simp [fetchByte]
@[simp] theorem fetchByte_cpu_op (s : State) : (fetchByte s).2.cpu.op = s.cpu.op := by simp [fetchByte]
@[simp] theorem fetchByte_cpu_dmaPending (s : State) : (fetchByte s).2.cpu.dmaPending = s.cpu.dmaPending := by simp [fetchByte]
@[simp] theorem fetchByte_cpu_pc (s : State) : (fetchByte s).2.cpu.pc = s.cpu.pc + 1 := by simp [fetchByte]
@[simp] theorem dummyRead_mapper (s : State) : (dummyRead s).mapper = s.mapper := by simp [dummyRead]
@[simp] theorem dummyRead_edge (s : State) : (dummyRead s).edge = s.edge := by simp [dummyRead]
@[simp] theorem dummyRead_arb (s : State) : (dummyRead s).arb = s.arb := by simp [dummyRead]
@[simp] theorem dummyRead_sched (s : State) : (dummyRead s).sched = s.sched := by simp [dummyRead]
@[simp] theorem dummyRead_host (s : State) : (dummyRead s).host = s.host := by simp [dummyRead]
@[simp] theorem dummyRead_ram (s : State) : (dummyRead s).ram = s.ram := by simp [dummyRead]
@[simp] theorem dummyRead_prg (s : State) : (dummyRead s).prg = s.prg := by simp [dummyRead]
@[simp] theorem dummyRead_params (s : State) : (dummyRead s).params = s.params := by simp [dummyRead]
@[simp] theorem dummyRead_ppu_ctrl (s : State) : (dummyRead s).ppu.ctrl = s.ppu.ctrl := by simp [dummyRead]
@[simp] theorem dummyRead_ppu_mask (s : State) : (dummyRead s).ppu.mask = s.ppu.mask := by simp [dummyRead]
@[simp] theorem dummyRead_ext_cpuExec (s : State) : (dummyRead s).ext.cpuExec = s.ext.cpuExec := by simp [dummyRead]
@[simp] theorem dummyRead_ext_fullPpu (s : State) : (dummyRead s).ext.fullPpu = s.ext.fullPpu := by simp [dummyRead]
@[simp] theorem dummyRead_ext_widePpu (s : State) : (dummyRead s).ext.widePpu = s.ext.widePpu := by simp [dummyRead]
@[simp] theorem dummyRead_ext_apuIo (s : State) : (dummyRead s).ext.apuIo = s.ext.apuIo := by simp [dummyRead]
@[simp] theorem dummyRead_ext_cart (s : State) : (dummyRead s).ext.cart = s.ext.cart := by simp [dummyRead]
@[simp] theorem dummyRead_cpu (s : State) : (dummyRead s).cpu = s.cpu := by simp [dummyRead]

end Sys2Proof.Machine
end

