-- ==== Sys2Proof/Laws/Decode.lean ====
section
/-! SUPPORT. What the decode tables of F-BUS and F-PPUA answer, by address ranges (R53, R56, R66, R84, R88). -/

namespace Sys2Proof

theorem readHead_toNat (a : Addr) : (readHead a).toNat = 65536 + a.toNat := by
  have := a.isLt
  simp [readHead]
  omega

theorem writeHead_toNat (a : Addr) : (writeHead a).toNat = a.toNat := by
  have := a.isLt
  simp [writeHead]
  omega

@[simp] theorem busAddr_readHead (a : Addr) : busAddr (readHead a) = a := by
  have := a.isLt
  apply BitVec.eq_of_toNat_eq
  simp [busAddr, readHead_toNat]
  omega

@[simp] theorem busAddr_writeHead (a : Addr) : busAddr (writeHead a) = a := by
  have := a.isLt
  apply BitVec.eq_of_toNat_eq
  simp [busAddr, writeHead_toNat]
  omega

/-- The row of a CPU read, by its address (R53, R56, R87). -/
theorem decodeBusRow_read (a : Addr) :
    decodeBusRow (readHead a) = some
      (if 0x8000 ≤ a.toNat then .cartPrgR
       else if a.toNat ≤ 0x1FFF then .ramR
       else if a.toNat ≤ 0x3FFF then .ppuRegR
       else if a.toNat ≤ 0x401F then .apuIoR
       else .cartLowR) := by
  have := a.isLt
  simp only [decodeBusRow, busTable, firstRow, FixedField.holds, readHead_toNat, List.all_cons, List.all_nil,
    Bool.and_true, Bool.and_eq_true, beq_iff_eq, Nat.reducePow, Nat.reduceAdd, Nat.reduceSub, Nat.div_one]
  rcases (by omega : 0x8000 ≤ a.toNat ∨ a.toNat ≤ 0x1FFF ∨ (0x2000 ≤ a.toNat ∧ a.toNat ≤ 0x3FFF)
    ∨ (0x4000 ≤ a.toNat ∧ a.toNat ≤ 0x401F) ∨ (0x4020 ≤ a.toNat ∧ a.toNat < 0x8000)) with h | h | h | h | h
  all_goals repeat (first | rw [if_pos (by omega)] | rw [if_neg (by omega)])

/-- The row of a CPU write, by its address (R53, R56, R84, R86). -/
theorem decodeBusRow_write (a : Addr) :
    decodeBusRow (writeHead a) = some
      (if 0xE000 ≤ a.toNat then (if a.toNat % 2 = 0 then .irqDisableAckW else .irqEnableW)
       else if 0xC000 ≤ a.toNat then (if a.toNat % 2 = 0 then .irqLatchW else .irqReloadW)
       else if 0x8000 ≤ a.toNat then .bankW
       else if a.toNat ≤ 0x1FFF then .ramW
       else if a.toNat ≤ 0x3FFF then .ppuRegW
       else if a.toNat ≤ 0x401F then .apuIoW
       else .cartLowW) := by
  have := a.isLt
  simp only [decodeBusRow, busTable, firstRow, FixedField.holds, writeHead_toNat, List.all_cons, List.all_nil,
    Bool.and_true, Bool.and_eq_true, beq_iff_eq, Nat.reducePow, Nat.reduceAdd, Nat.reduceSub, Nat.div_one]
  rcases (by omega : (0xE000 ≤ a.toNat ∧ a.toNat % 2 = 0) ∨ (0xE000 ≤ a.toNat ∧ a.toNat % 2 = 1)
    ∨ (0xC000 ≤ a.toNat ∧ a.toNat < 0xE000 ∧ a.toNat % 2 = 0) ∨ (0xC000 ≤ a.toNat ∧ a.toNat < 0xE000 ∧ a.toNat % 2 = 1)
    ∨ (0x8000 ≤ a.toNat ∧ a.toNat < 0xC000) ∨ a.toNat ≤ 0x1FFF ∨ (0x2000 ≤ a.toNat ∧ a.toNat ≤ 0x3FFF)
    ∨ (0x4000 ≤ a.toNat ∧ a.toNat ≤ 0x401F) ∨ (0x4020 ≤ a.toNat ∧ a.toNat < 0x8000))
    with h | h | h | h | h | h | h | h | h
  all_goals repeat (first | rw [if_pos (by omega)] | rw [if_neg (by omega)])

/-- A bit of an address, by division. -/
theorem addr_bit (a : Addr) (i : Nat) : a.getLsbD i = decide (a.toNat / 2 ^ i % 2 = 1) := by
  simp [BitVec.getLsbD, Nat.testBit_eq_decide_div_mod_eq]

/-- The bits that the mask $E001 keeps, as ranges and parity (R84). -/
theorem irqMask (a : Addr) :
    (a &&& 0xE001 = 0xC000 → 0xC000 ≤ a.toNat ∧ a.toNat < 0xE000 ∧ a.toNat % 2 = 0) ∧
    (a &&& 0xE001 = 0xC001 → 0xC000 ≤ a.toNat ∧ a.toNat < 0xE000 ∧ a.toNat % 2 = 1) ∧
    (a &&& 0xE001 = 0xE000 → 0xE000 ≤ a.toNat ∧ a.toNat % 2 = 0) ∧
    (a &&& 0xE001 = 0xE001 → 0xE000 ≤ a.toNat ∧ a.toNat % 2 = 1) := by
  have hl := a.isLt
  have key : ∀ k : Addr, a &&& 0xE001 = k →
      a.getLsbD 15 = k.getLsbD 15 ∧ a.getLsbD 14 = k.getLsbD 14 ∧ a.getLsbD 13 = k.getLsbD 13
        ∧ a.getLsbD 0 = k.getLsbD 0 := by
    intro k h
    rw [← h]
    simp
  refine ⟨fun h => ?_, fun h => ?_, fun h => ?_, fun h => ?_⟩
  all_goals
    obtain ⟨h15, h14, h13, h0⟩ := key _ h
    rw [addr_bit] at h15 h14 h13 h0
    simp at h15 h14 h13 h0
    omega

/-- The class of a PPU address (R66). -/
theorem decodePpuaRow_eq (p : PAddr) :
    decodePpuaRow p = some
      (if p.toNat ≤ 0x0FFF then .pattern0
       else if p.toNat ≤ 0x1FFF then .pattern1
       else if p.toNat ≤ 0x2FFF then .nametable
       else if p.toNat ≤ 0x3EFF then .ntMirror
       else .palette) := by
  have := p.isLt
  simp only [decodePpuaRow, ppuaTable, firstRow, FixedField.holds, List.all_cons, List.all_nil, Bool.and_true,
    beq_iff_eq, Nat.reducePow, Nat.reduceAdd, Nat.reduceSub]
  rcases (by omega : p.toNat ≤ 0x0FFF ∨ (0x1000 ≤ p.toNat ∧ p.toNat ≤ 0x1FFF) ∨ (0x2000 ≤ p.toNat ∧ p.toNat ≤ 0x2FFF)
    ∨ (0x3000 ≤ p.toNat ∧ p.toNat ≤ 0x3EFF) ∨ 0x3F00 ≤ p.toNat) with h | h | h | h | h
  all_goals repeat (first | rw [if_pos (by omega)] | rw [if_neg (by omega)])

/-- A PPU address as a 16-bit word is below $4000, and its low 14 bits are the address (R81, R94). -/
theorem ppuaWord (p : PAddr) : (p.setWidth 16).toNat < 16384 ∧ (p.setWidth 16).extractLsb' 0 14 = p := by
  have := p.isLt
  refine ⟨by simp; omega, ?_⟩
  apply BitVec.eq_of_toNat_eq
  simp
  omega

end Sys2Proof
end

