-- ==== Sys2Proof/Laws/Mapper.lean ====
section
/-! SUPPORT. Everything a tick of the Mapper IRQ unit does, field by field (R128), and everything a register write does (R121 to R124). -/

namespace Sys2Proof.Machine

/-- The counter after a tick: reloaded, or one less and never below zero (R128). -/
theorem mapperTick_counter (m : Mapper) :
    (mapperTick m).counter = if m.reloadPending then m.latch else if m.counter = 0 then 0 else m.counter - 1 := by
  have h : (mapperTick m).counter = (countTick m).counter := by unfold mapperTick; split <;> rfl
  rw [h]
  unfold countTick
  split
  · rfl
  · split <;> simp_all

/-- A tick consumes a reload request (R128). -/
@[simp] theorem mapperTick_reloadPending (m : Mapper) : (mapperTick m).reloadPending = false := by
  have h : (mapperTick m).reloadPending = (countTick m).reloadPending := by unfold mapperTick; split <;> rfl
  rw [h]
  unfold countTick
  split
  · rfl
  · split <;> simp_all

/-- A tick that leaves zero asserts the line if enabled, and no tick clears it (R128, R129). -/
theorem mapperTick_irqLine (m : Mapper) :
    (mapperTick m).irqLine = (m.irqLine || (decide ((mapperTick m).counter = 0) && m.enabled)) := by
  have h : (mapperTick m).counter = (countTick m).counter := by unfold mapperTick; split <;> rfl
  rw [h]
  unfold mapperTick
  split
  · rename_i hc
    have he : m.enabled = true := by simpa using hc.2
    simp [hc.1, he]
  · rename_i hc
    have : (decide ((countTick m).counter = 0) && m.enabled) = false := by
      rw [countTick_enabled] at hc
      cases hd : m.enabled <;> simp_all
    rw [this, countTick_irqLine, Bool.or_false]

/-- The register a write selects, by its address (R84). -/
theorem irqRegOf_eq (a : Addr) (h : 0xC000 ≤ a.toNat) :
    irqRegOf a = if 0xE000 ≤ a.toNat then (if a.toNat % 2 = 0 then .disableAck else .enable)
      else (if a.toNat % 2 = 0 then .latch else .reload) := by
  have hl := a.isLt
  unfold irqRegOf
  rw [addr_bit, addr_bit]
  simp only [decide_eq_true_eq]
  rcases (by omega : (0xE000 ≤ a.toNat ∧ a.toNat % 2 = 0) ∨ (0xE000 ≤ a.toNat ∧ a.toNat % 2 = 1)
    ∨ (a.toNat < 0xE000 ∧ a.toNat % 2 = 0) ∨ (a.toNat < 0xE000 ∧ a.toNat % 2 = 1)) with h | h | h | h
  all_goals repeat (first | rw [if_pos (by omega)] | rw [if_neg (by omega)])

/-- A register write keeps the counter (R121 to R124). -/
@[simp] theorem irqRegWrite_counter (m : Mapper) (r : IrqReg) (v : Byte) : (irqRegWrite m r v).counter = m.counter := by
  cases r <;> rfl

/-- A register write never asserts the line (R125). -/
theorem irqRegWrite_irqLine (m : Mapper) (r : IrqReg) (v : Byte) (h : m.irqLine = false) :
    (irqRegWrite m r v).irqLine = false := by
  cases r <;> simp [irqRegWrite, latchWrite, reloadWrite, disableAckWrite, enableWrite, h]

/-- What a CPU write does to the unit: its register write at $C000 and above, nothing below (R120, R145). -/
theorem memWrite_mapper (s : State) (a : Addr) (v : Byte) :
    (memWrite s a v).mapper = if 0xC000 ≤ a.toNat then irqRegWrite s.mapper (irqRegOf a) v else s.mapper := by
  split
  · rename_i h
    rw [memWrite_of_mapper s a v h]
    rfl
  · rename_i h
    have hr : route false a ≠ .mapperIrq := by
      unfold route
      repeat' split
      all_goals first | decide | omega
    unfold memWrite targetWrite
    cases hq : route false a <;> simp only []
    · rfl
    · simp only [ppuTargetWrite]; repeat' split
      all_goals simp
    · simp only [apuTargetWrite]; split <;> simp
    · simp
    · rfl
    · simp
    · exact absurd hq hr

/-- One tick more, at the far end. -/
theorem ticks_succ (n : Nat) (m : Mapper) : ticks (n + 1) m = mapperTick (ticks n m) := by
  induction n generalizing m with
  | zero => rfl
  | succ n ih => rw [ticks, ih]; rfl

/-- Ticks add up. -/
theorem ticks_add (n k : Nat) (m : Mapper) : ticks (n + k) m = ticks k (ticks n m) := by
  induction n generalizing m with
  | zero => simp [ticks]
  | succ n ih => rw [Nat.succ_add, ticks, ih]; rfl

@[simp] theorem ticks_latch (n : Nat) (m : Mapper) : (ticks n m).latch = m.latch := by
  induction n generalizing m with
  | zero => rfl
  | succ n ih => rw [ticks, ih, mapperTick_latch]

@[simp] theorem ticks_enabled (n : Nat) (m : Mapper) : (ticks n m).enabled = m.enabled := by
  induction n generalizing m with
  | zero => rfl
  | succ n ih => rw [ticks, ih, mapperTick_enabled]

end Sys2Proof.Machine
end

