-- ==== Sys2Proof/Laws/Time.lean ====
section
/-! SUPPORT. Everything a dot does to the position, to the vertical-blank flag and to the arbiter (R103 to R106, R170, R223); that it
reads nothing of the CPU's side; and how stretches of dots compose (R100). -/

namespace Sys2Proof.Machine

/-! ## The position -/

/-- Whether the dot after this position wraps to (0, 0); skip: the odd-frame skip is there and rendering is on (R104). -/
def wraps (skip : Bool) (t : Scheduler) : Bool :=
  decide (t.line = 261 ∧ t.dot = 340) || (decide (t.line = 261 ∧ t.dot = 339) && t.oddFrame && skip)

/-- The odd-frame skip is there and rendering is on (R104). -/
def maySkip (g : Settings) (rendering : Bool) : Bool := rendering && g.oddFrameSkip

/-- The scheduler after a dot, from its registers, the parameters and rendering_enabled alone (R104, R105, R106). -/
def schedAfterDot (g : Settings) (rendering : Bool) (t : Scheduler) : Scheduler :=
  { t with
    line := if wraps (maySkip g rendering) t then 0 else if t.dot = 340 then t.line + 1 else t.line
    dot := if wraps (maySkip g rendering) t ∨ t.dot = 340 then 0 else t.dot + 1
    oddFrame := if wraps (maySkip g rendering) t then !t.oddFrame else t.oddFrame
    frameDone := t.frameDone || decide (t.line = g.stepEndLine ∧ t.dot = g.stepEndDot) }

theorem advance_sched (s : State) :
    (advance s).sched = { schedAfterDot s.params (renderingEnabled s) s.sched with frameDone := s.sched.frameDone } := by
  unfold advance
  split
  · rename_i h
    simp [skipsDot, Config.prerenderLine, Config.dotsPerLine] at h
    simp [schedAfterDot, wraps, maySkip, h]
  · rename_i h
    simp [skipsDot, Config.prerenderLine, Config.dotsPerLine] at h
    split
    · rename_i hd
      simp only [Config.dotsPerLine] at hd
      split
      · rename_i hl
        simp only [Config.linesPerFrame] at hl
        simp [schedAfterDot, wraps, hd, hl]
      · rename_i hl
        simp only [Config.linesPerFrame] at hl
        simp [schedAfterDot, wraps, hd, hl]
    · rename_i hd
      simp only [Config.dotsPerLine] at hd
      have hw : wraps (maySkip s.params (renderingEnabled s)) s.sched = false := by
        unfold wraps maySkip
        have : ¬(s.sched.dot = 340) := hd
        by_cases h1 : s.sched.line = 261 <;> by_cases h2 : s.sched.dot = 339 <;> simp_all
      have hd' : ¬(s.sched.dot = 340) := hd
      simp [schedAfterDot, hw, hd']

theorem frameEndUpdate_sched (s : State) (l d : Nat) :
    (frameEndUpdate s l d).sched =
      { s.sched with frameDone := s.sched.frameDone || decide (l = s.params.stepEndLine ∧ d = s.params.stepEndDot) } := by
  unfold frameEndUpdate
  split
  · rename_i h
    simp [h, endFrame]
  · rename_i h
    have hd : decide (l = s.params.stepEndLine ∧ d = s.params.stepEndDot) = false := by simpa using h
    rw [hd, Bool.or_false]

@[simp] theorem vblankUpdate_sched' (s : State) (l d : Nat) : (vblankUpdate s l d).sched = s.sched := by
  unfold vblankUpdate; (repeat' split) <;> simp

/-- The scheduler after a whole dot (R104 to R106). -/
theorem wholeDot_sched (s : State) : (wholeDot s).sched = schedAfterDot s.params (renderingEnabled s) s.sched := by
  unfold wholeDot
  rw [advance_sched, frameEndUpdate_sched]
  simp [renderingEnabled, schedAfterDot, wraps, maySkip]

/-- The scheduler after a dot of an unstopped instance. -/
theorem ppuDot_sched {s : State} (h : unstopped s = true) :
    (ppuDot s).sched = schedAfterDot s.params (renderingEnabled s) s.sched := by
  rw [ppuDot_unstopped h, wholeDot_sched]

/-- P.vblank after a dot (R223). -/
def vblankAfterDot (t : Scheduler) (v : Bool) : Bool :=
  if t.line = 241 ∧ t.dot = 1 then true else if t.line = 261 ∧ t.dot = 1 then false else v

theorem vblankUpdate_vblank (s : State) (l d : Nat) :
    (vblankUpdate s l d).ppu.vblank =
      if l = 241 ∧ d = 1 then true else if l = 261 ∧ d = 1 then false else s.ppu.vblank := by
  have e : vblankUpdate s l d =
      if l = 241 ∧ d = 1 then setVblank s true else if l = 261 ∧ d = 1 then setVblank s false else s := rfl
  rw [e]
  by_cases h1 : l = 241 ∧ d = 1
  · simp only [if_pos h1]; rfl
  · by_cases h2 : l = 261 ∧ d = 1
    · simp only [if_neg h1, if_pos h2]; rfl
    · simp only [if_neg h1, if_neg h2]

/-- The PPU stub after a whole dot (R223). -/
theorem wholeDot_ppu (s : State) :
    (wholeDot s).ppu = { s.ppu with vblank := vblankAfterDot s.sched s.ppu.vblank } := by
  have h : (wholeDot s).ppu.vblank = vblankAfterDot s.sched s.ppu.vblank := by
    unfold wholeDot
    simp [vblankUpdate_vblank, vblankAfterDot]
  have hc := wholeDot_ppu_ctrl s
  have hm := wholeDot_ppu_mask s
  rcases hq : (wholeDot s).ppu with ⟨c, m, v⟩
  rw [hq] at h hc hm
  simp_all

/-- The arbiter after a whole dot: the NMI sample sees the flag as this dot leaves it (R103, R170). -/
theorem wholeDot_arb (s : State) :
    (wholeDot s).arb =
      { nmiPrev := (wholeDot s).ppu.vblank && ctrlNmi s.ppu.ctrl
        nmiPending := s.arb.nmiPending || ((wholeDot s).ppu.vblank && ctrlNmi s.ppu.ctrl && !s.arb.nmiPrev) } := by
  unfold wholeDot
  simp [nmiSample, nmiOut]

/-- The decoder's part is all a dot does to the mapper and the edge detector, whether the dot is stopped there or not (R103, R94). -/
theorem ppuDot_mapper {s : State} (h : halted s = false) : (ppuDot s).mapper = (dotDecode s s.sched.line s.sched.dot).mapper := by
  rcases ppuDot_cases s with ⟨h', -⟩ | ⟨-, -, e⟩ | ⟨-, -, e⟩
  · simp [h] at h'
  · simp [e, raisePpuAddrWidth, raiseFault]
  · simp [e, wholeDot]

theorem ppuDot_edge {s : State} (h : halted s = false) : (ppuDot s).edge = (dotDecode s s.sched.line s.sched.dot).edge := by
  rcases ppuDot_cases s with ⟨h', -⟩ | ⟨-, -, e⟩ | ⟨-, -, e⟩
  · simp [h] at h'
  · simp [e, raisePpuAddrWidth, raiseFault]
  · simp [e, wholeDot]

/-- An observed address leaves the edge detector as `edge_step` says (R206). -/
theorem observe_edge (s : State) (p : PAddr) (l : Nat) :
    (observe s p l).edge = edgeNext s.params.a12LowMin s.edge (p.getLsbD 12) (renderingActive s l) := by
  unfold observe
  simp only []
  split <;> rfl

/-- An observed address ticks the mapper exactly where `edge_step` is true (R206, R209). -/
theorem observe_mapper (s : State) (p : PAddr) (l : Nat) :
    (observe s p l).mapper =
      if edgeFires s.params.a12LowMin s.edge (p.getLsbD 12) (renderingActive s l) then mapperTick s.mapper else s.mapper := by
  unfold observe
  simp only []
  split <;> rfl

/-- A dot leaves the mapper as it was, or ticks it once (R200, R209). -/
theorem ppuDot_mapper_cases (s : State) : (ppuDot s).mapper = s.mapper ∨ (ppuDot s).mapper = mapperTick s.mapper := by
  cases h : halted s
  · rw [ppuDot_mapper h, dotDecode, observe_mapper]
    split <;> simp
  · left; rw [ppuDot_halted h]

/-- No dot clears an asserted line (R127, R214). -/
theorem ppuDot_irqLine (s : State) (h : s.mapper.irqLine = true) : (ppuDot s).mapper.irqLine = true := by
  rcases ppuDot_mapper_cases s with hm | hm
  · rw [hm, h]
  · rw [hm, mapperTick_irqLine, h, Bool.true_or]

/-! ## Dots read nothing of the CPU's side -/

/-- The state with another CPU, open-bus latch, RAM and cycle count. -/
def withCpuSide (s : State) (c : Cpu) (b : BusUnit) (m : Memory) (n : Nat) : State :=
  { s with cpu := c, bus := b, ram := m, sched := { s.sched with cpuCycles := n } }

theorem clearGate_withCpuSide (s : State) (c : Cpu) (b : BusUnit) (m : Memory) (n d : Nat) :
    clearGate (withCpuSide s c b m n) d = withCpuSide (clearGate s d) c b m n := by
  unfold clearGate; split <;> rfl

theorem observe_withCpuSide (s : State) (c : Cpu) (b : BusUnit) (m : Memory) (n : Nat) (p : PAddr) (l : Nat) :
    observe (withCpuSide s c b m n) p l = withCpuSide (observe s p l) c b m n := by
  unfold observe
  simp only []
  have h1 : (withCpuSide s c b m n).edge = s.edge := rfl
  have h2 : renderingActive (withCpuSide s c b m n) l = renderingActive s l := rfl
  have h3 : (withCpuSide s c b m n).params = s.params := rfl
  rw [h1, h2, h3]
  split <;> rfl

theorem dotDecode_withCpuSide (s : State) (c : Cpu) (b : BusUnit) (m : Memory) (n l d : Nat) :
    dotDecode (withCpuSide s c b m n) l d = withCpuSide (dotDecode s l d) c b m n := by
  unfold dotDecode
  rw [clearGate_withCpuSide, observe_withCpuSide]
  rfl

theorem vblankUpdate_withCpuSide (s : State) (c : Cpu) (b : BusUnit) (m : Memory) (n l d : Nat) :
    vblankUpdate (withCpuSide s c b m n) l d = withCpuSide (vblankUpdate s l d) c b m n := by
  unfold vblankUpdate; (repeat' split) <;> rfl

theorem renderDot_withCpuSide (s : State) (c : Cpu) (b : BusUnit) (m : Memory) (n l d : Nat) :
    renderDot (withCpuSide s c b m n) l d = withCpuSide (renderDot s l d) c b m n := by
  unfold renderDot
  have h : (withCpuSide s c b m n).ext = s.ext := rfl
  rw [h]
  split <;> rfl

theorem frameEndUpdate_withCpuSide (s : State) (c : Cpu) (b : BusUnit) (m : Memory) (n l d : Nat) :
    frameEndUpdate (withCpuSide s c b m n) l d = withCpuSide (frameEndUpdate s l d) c b m n := by
  unfold frameEndUpdate
  have h : (withCpuSide s c b m n).params = s.params := rfl
  rw [h]
  split <;> rfl

theorem advance_withCpuSide (s : State) (c : Cpu) (b : BusUnit) (m : Memory) (n : Nat) :
    advance (withCpuSide s c b m n) = withCpuSide (advance s) c b m n := by
  unfold advance
  have h1 : skipsDot (withCpuSide s c b m n) = skipsDot s := rfl
  have h2 : (withCpuSide s c b m n).sched.dot = s.sched.dot := rfl
  have h3 : (withCpuSide s c b m n).sched.line = s.sched.line := rfl
  rw [h1, h2, h3]
  (repeat' split) <;> rfl

theorem wholeDot_withCpuSide (s : State) (c : Cpu) (b : BusUnit) (m : Memory) (n : Nat) :
    wholeDot (withCpuSide s c b m n) = withCpuSide (wholeDot s) c b m n := by
  unfold wholeDot
  have h2 : (withCpuSide s c b m n).sched.dot = s.sched.dot := rfl
  have h3 : (withCpuSide s c b m n).sched.line = s.sched.line := rfl
  have h4 : ∀ t, nmiSample (withCpuSide t c b m n) = withCpuSide (nmiSample t) c b m n := fun _ => rfl
  rw [h2, h3, dotDecode_withCpuSide, vblankUpdate_withCpuSide, renderDot_withCpuSide, h4, frameEndUpdate_withCpuSide,
    advance_withCpuSide]

/-- A dot neither reads nor writes the CPU, the open-bus latch, RAM or the cycle count (R103, R214). -/
theorem ppuDot_withCpuSide (s : State) (c : Cpu) (b : BusUnit) (m : Memory) (n : Nat) :
    ppuDot (withCpuSide s c b m n) = withCpuSide (ppuDot s) c b m n := by
  have h1 : halted (withCpuSide s c b m n) = halted s := rfl
  have h2 : currentWord (withCpuSide s c b m n) = currentWord s := rfl
  have h3 : (withCpuSide s c b m n).sched.line = s.sched.line := rfl
  have h4 : (withCpuSide s c b m n).sched.dot = s.sched.dot := rfl
  unfold ppuDot
  rw [h1, h2, h3, h4, dotDecode_withCpuSide, wholeDot_withCpuSide]
  (repeat' split) <;> rfl

/-! ## Stretches of dots -/

/-- The three dots of a CPU cycle are three dots (R100). -/
theorem threeDots_eq (s : State) : threeDots s = dots 3 s := rfl

theorem dots_succ (n : Nat) (s : State) : dots (n + 1) s = ppuDot (dots n s) := by
  induction n generalizing s with
  | zero => rfl
  | succ n ih => rw [dots, ih]; rfl

theorem dots_add (n k : Nat) (s : State) : dots (n + k) s = dots k (dots n s) := by
  induction n generalizing s with
  | zero => simp [dots]
  | succ n ih => rw [Nat.succ_add, dots, ih]; rfl

@[simp] theorem dots_cpu (n : Nat) (s : State) : (dots n s).cpu = s.cpu := by
  induction n generalizing s with
  | zero => rfl
  | succ n ih => rw [dots, ih, ppuDot_cpu]
@[simp] theorem dots_bus (n : Nat) (s : State) : (dots n s).bus = s.bus := by
  induction n generalizing s with
  | zero => rfl
  | succ n ih => rw [dots, ih, ppuDot_bus]
@[simp] theorem dots_ram (n : Nat) (s : State) : (dots n s).ram = s.ram := by
  induction n generalizing s with
  | zero => rfl
  | succ n ih => rw [dots, ih, ppuDot_ram]
@[simp] theorem dots_prg (n : Nat) (s : State) : (dots n s).prg = s.prg := by
  induction n generalizing s with
  | zero => rfl
  | succ n ih => rw [dots, ih, ppuDot_prg]
@[simp] theorem dots_params (n : Nat) (s : State) : (dots n s).params = s.params := by
  induction n generalizing s with
  | zero => rfl
  | succ n ih => rw [dots, ih, ppuDot_params]
@[simp] theorem dots_ppu_ctrl (n : Nat) (s : State) : (dots n s).ppu.ctrl = s.ppu.ctrl := by
  induction n generalizing s with
  | zero => rfl
  | succ n ih => rw [dots, ih, ppuDot_ppu_ctrl]
@[simp] theorem dots_ppu_mask (n : Nat) (s : State) : (dots n s).ppu.mask = s.ppu.mask := by
  induction n generalizing s with
  | zero => rfl
  | succ n ih => rw [dots, ih, ppuDot_ppu_mask]
@[simp] theorem dots_sched_cpuCycles (n : Nat) (s : State) : (dots n s).sched.cpuCycles = s.sched.cpuCycles := by
  induction n generalizing s with
  | zero => rfl
  | succ n ih => rw [dots, ih, ppuDot_sched_cpuCycles]
@[simp] theorem dots_sched_joypad (n : Nat) (s : State) : (dots n s).sched.joypad = s.sched.joypad := by
  induction n generalizing s with
  | zero => rfl
  | succ n ih => rw [dots, ih, ppuDot_sched_joypad]

theorem unstopped_dots {s : State} (h : unstopped s = true) (n : Nat) : unstopped (dots n s) = true := by
  induction n generalizing s with
  | zero => exact h
  | succ n ih => exact ih (unstopped_ppuDot h)

theorem dots_halted {s : State} (h : halted s = true) (n : Nat) : dots n s = s := by
  induction n with
  | zero => rfl
  | succ n ih => rw [dots, ppuDot_halted h, ih]

/-- The scheduler after n dots, from its registers, the parameters and rendering_enabled alone. -/
def schedAfterDots (g : Settings) (rendering : Bool) : Nat → Scheduler → Scheduler
  | 0, t => t
  | n + 1, t => schedAfterDots g rendering n (schedAfterDot g rendering t)

/-- The scheduler after n dots: the position depends on nothing but itself, the parity, the parameters and PPUMASK (R104, R105, R106). -/
theorem dots_sched {s : State} (h : unstopped s = true) (n : Nat) :
    (dots n s).sched = schedAfterDots s.params (renderingEnabled s) n s.sched := by
  induction n generalizing s with
  | zero => rfl
  | succ n ih =>
    have hr : renderingEnabled (ppuDot s) = renderingEnabled s := by simp [renderingEnabled]
    rw [dots, ih (unstopped_ppuDot h), hr, ppuDot_sched h, ppuDot_params]
    rfl

theorem schedAfterDots_add (g : Settings) (r : Bool) (n k : Nat) (t : Scheduler) :
    schedAfterDots g r (n + k) t = schedAfterDots g r k (schedAfterDots g r n t) := by
  induction n generalizing t with
  | zero => simp [schedAfterDots]
  | succ n ih => rw [Nat.succ_add, schedAfterDots, ih]; rfl

/-- The cycle count plays no part in the position. -/
theorem schedAfterDots_cpuCycles (g : Settings) (r : Bool) (n k : Nat) (t : Scheduler) :
    schedAfterDots g r n { t with cpuCycles := k } = { schedAfterDots g r n t with cpuCycles := k } := by
  induction n generalizing t with
  | zero => rfl
  | succ n ih => rw [schedAfterDots, schedAfterDots, ← ih]; rfl

/-! ## Time passes -/

/-- Time adds up, if PPUMASK and the parameters are the same at its middle (R100). -/
theorem tookCycles_trans {m n : Nat} {s t u : State} (hs : unstopped s = true) (ht : unstopped t = true)
    (h1 : tookCycles m s t) (hm : t.ppu.mask = s.ppu.mask)
    (hp : t.params = s.params) (h2 : tookCycles n t u) : tookCycles (m + n) s u := by
  unfold tookCycles at *
  have hr : renderingEnabled t = renderingEnabled s := by simp [renderingEnabled, hm]
  rw [h2, dots_sched ht, hr, hp, h1, dots_sched hs, schedAfterDots_cpuCycles, dots_sched hs, Nat.mul_add, schedAfterDots_add]
  simp [Nat.add_assoc]

theorem hostUntouched_trans {s t u : State} (h1 : hostUntouched s t) (h2 : hostUntouched t u) : hostUntouched s u := by
  unfold hostUntouched at *
  simp_all

theorem sameParameters_trans {s t u : State} (h1 : sameParameters s t) (h2 : sameParameters t u) : sameParameters s u := by
  unfold sameParameters at *
  simp_all

theorem registersKept_trans {s t u : State} (h1 : registersKept s t) (h2 : registersKept t u) : registersKept s u := by
  unfold registersKept at *
  simp_all

/-- A frame keeps an instance unstopped. -/
theorem passes_unstopped {n : Nat} {s t : State} (h : unstopped s = true) (hp : passes n s t) : unstopped t = true := by
  obtain ⟨-, ⟨-, -, -, hf, -⟩, ⟨-, -, -, h2, h3, -⟩, -⟩ := hp
  rw [unstopped_congr hf h2 h3, h]

/-- The frames of two operations in a row. -/
theorem passes_trans {m n : Nat} {s t u : State} (hs : unstopped s = true) (h1 : passes m s t) (h2 : passes n t u) :
    passes (m + n) s u :=
  ⟨tookCycles_trans hs (passes_unstopped hs h1) h1.1 h1.2.2.2.2.2.1 h1.2.2.1.2.1 h2.1, hostUntouched_trans h1.2.1 h2.2.1,
    sameParameters_trans h1.2.2.1 h2.2.2.1, registersKept_trans h1.2.2.2 h2.2.2.2⟩

/-- A CPU action that touches no register but the CPU's, the latch, RAM, P.vblank, and what a collaborator's read changes. -/
def quietAction (f : State → State) : Prop :=
  ∀ s, (f s).sched = s.sched ∧ (f s).mapper = s.mapper ∧ (f s).host = s.host ∧ sameParameters s (f s) ∧ registersKept s (f s)

/-- Dots leave the frame of an operation, as far as it speaks of them. -/
theorem threeDots_frame {s : State} (h : unstopped s = true) :
    hostUntouched s (threeDots s) ∧ sameParameters s (threeDots s) ∧ registersKept s (threeDots s) := by
  refine ⟨?_, by simp [sameParameters], ?_⟩
  · simp [hostUntouched, threeDots_host_fault h, threeDots_host_reply h]
  · simp only [registersKept, threeDots_cpu, threeDots_ppu_ctrl, threeDots_ppu_mask, threeDots_mapper_latch,
      threeDots_mapper_enabled, threeDots_ext_bankSt, threeDots_ext_cpuSt, true_and]
    exact fun hi => ppuDot_irqLine _ (ppuDot_irqLine _ (ppuDot_irqLine _ hi))

/-- A timed cycle of a quiet action is one cycle of time (R102). -/
theorem passes_timed {f : State → State} (hf : quietAction f) (next : Op) {s : State} (h : unstopped s = true) :
    passes 1 s (timed next f s) := by
  obtain ⟨hs, hm, hh, hp, hk⟩ := hf (threeDots s)
  obtain ⟨ah, ap, ak⟩ := threeDots_frame h
  rw [timed_eq next f h]
  refine ⟨?_, ?_, sameParameters_trans ap hp, registersKept_trans ak hk⟩
  · show (countCycle (f (threeDots s))).sched = _
    simp only [countCycle, setSched, hs]
    simp [threeDots_eq]
  · apply hostUntouched_trans ah
    simp [hostUntouched, hh, hs]

theorem unstopped_timed {f : State → State} (hf : quietAction f) (next : Op) {s : State} (h : unstopped s = true) :
    unstopped (timed next f s) = true := passes_unstopped h (passes_timed hf next h)

/-! The CPU's shared accesses are quiet actions, or keep the frame beside the stack (R166, R180). -/

theorem quiet_dummyRead : quietAction dummyRead := by
  intro s
  simp [sameParameters, registersKept, dummyRead]

theorem quiet_dummyStackRead : quietAction dummyStackRead := by
  intro s
  simp [sameParameters, registersKept, dummyStackRead]

theorem quiet_fetchByte : quietAction (fun t => (fetchByte t).2) := by
  intro s
  simp [sameParameters, registersKept, fetchByte]

theorem quiet_push (v : State → Byte) : quietAction (fun t => push t (v t)) := by
  intro s
  simp [sameParameters, registersKept, push_eq]

theorem quiet_pull : quietAction (fun t => (pull t).2) := by
  intro s
  simp [sameParameters, registersKept, pull_eq]

/-- A quiet action may also write the CPU's own registers. -/
theorem quiet_then {f : State → State} (hf : quietAction f) (g : State → State)
    (hg : ∀ s, g s = { s with cpu := { (g s).cpu with dmaPending := s.cpu.dmaPending } }) :
    quietAction (fun t => g (f t)) := by
  intro s
  obtain ⟨h1, h2, h3, h4, h5⟩ := hf s
  simp only []
  rw [hg (f s)]
  exact ⟨h1, h2, h3, h4, h5⟩

end Sys2Proof.Machine
end

