-- ==== Sys2Proof/Laws/Decoder.lean ====
section
/-! SUPPORT. The PPU address decoder, dot by dot: where it is active, what it drives where nothing is fetched, and what one dot does to
the edge detector and the mapper (R200 to R209). -/

namespace Sys2Proof.Machine

/-- The lines with fetches (R202). -/
theorem renderingLine_iff (l : Nat) : renderingLine l = true ↔ (l ≤ 239 ∨ l = 261) := by
  simp only [renderingLine, Bool.or_eq_true, decide_eq_true_eq, beq_iff_eq]
  show l < 240 ∨ l = 261 ↔ _
  omega

/-- The gate (R207). -/
theorem renderingActive_eq (s : State) (l : Nat) :
    renderingActive s l = (renderingEnabled s && (decide (l ≤ 239) || decide (l = 261) && s.params.prerenderTicks)) := by
  unfold renderingActive
  congr 1
  rw [Bool.eq_iff_iff]
  simp only [Bool.or_eq_true, Bool.and_eq_true, decide_eq_true_eq, beq_iff_eq]
  show l < 240 ∨ (l = 261 ∧ s.params.prerenderTicks = true) ↔ l ≤ 239 ∨ (l = 261 ∧ s.params.prerenderTicks = true)
  rw [show l < 240 ↔ l ≤ 239 by omega]

/-- An active line is a line with fetches (R202, R207). -/
theorem renderingActive_fetches (s : State) (l : Nat) (h : renderingActive s l = true) :
    (renderingEnabled s && renderingLine l) = true := by
  rw [renderingActive_eq] at h
  simp only [Bool.and_eq_true, Bool.or_eq_true, decide_eq_true_eq, renderingLine_iff] at *
  exact ⟨h.1, by omega⟩

@[simp] theorem patternAddr_a12 (b : Bool) : (patternAddr b).getLsbD 12 = b := by cases b <;> rfl
@[simp] theorem nametableAddr_a12 : nametableAddr.getLsbD 12 = false := rfl

/-- Bit 12 of a word is its address's (R94). -/
@[simp] theorem truncateAddr_a12 (w : BitVec 16) : (truncateAddr w).getLsbD 12 = w.getLsbD 12 := by
  simp [truncateAddr]

@[simp] theorem fetchWord_a12 (b : Bool) (w : BitVec 16) : (fetchWord b w).getLsbD 12 = b := by
  cases b <;> simp [fetchWord]

/-- A 14-bit address without bits 13 and 12 both set lies below the nametable mirror (R66). -/
theorem below_mirror {p : PAddr} (h : (p.getLsbD 13 && p.getLsbD 12) = false) : p.toNat ≤ 0x2FFF := by
  have := p.isLt
  simp only [BitVec.getLsbD, Nat.testBit_eq_decide_div_mod_eq, Bool.and_eq_false_iff, decide_eq_false_iff_not] at h
  omega

/-- What is held to the fetched classes is a pattern-table or $2000-$2FFF address (R66). -/
theorem fetchWord_below_mirror (b : Bool) (w : BitVec 16) : (truncateAddr (fetchWord b w)).toNat ≤ 0x2FFF := by
  apply below_mirror
  cases b <;> simp [fetchWord, truncateAddr]

/-- The schedule gives pattern-table and $2000-$2FFF addresses alone (R66, R202 to R204). -/
theorem scheduleAddr_below_mirror (s : State) (l d : Nat) : (scheduleAddr s l d).toNat ≤ 0x2FFF := by
  unfold scheduleAddr patternAddr
  (repeat' split) <;> decide

/-- Bit 12 of what a full PPU drives is the schedule's (R201). -/
theorem engineWord_a12 (s : State) (l d : Nat) : (engineWord s l d).getLsbD 12 = (scheduleAddr s l d).getLsbD 12 :=
  fetchWord_a12 _ _

/-- A12 at a dot: the schedule's where the PPU fetches, and 0 elsewhere (R201, R205). -/
theorem ppuBusWord_a12 (s : State) (l d : Nat) :
    (ppuBusWord s l d).getLsbD 12 = (renderingEnabled s && renderingLine l && (scheduleAddr s l d).getLsbD 12) := by
  unfold ppuBusWord
  cases renderingEnabled s && renderingLine l
  · simp
  · simp only [if_true, Bool.true_and]
    split
    · exact engineWord_a12 s l d
    · simp

@[simp] theorem ppuFetchAddr_a12 (s : State) (l d : Nat) : (ppuFetchAddr s l d).getLsbD 12 = (ppuBusWord s l d).getLsbD 12 :=
  truncateAddr_a12 _

/-- Every address of a dot is a pattern-table or $2000-$2FFF address, so that one with A12 set is in pattern table 1 (R66). -/
theorem ppuFetchAddr_below_mirror (s : State) (l d : Nat) : (ppuFetchAddr s l d).toNat ≤ 0x2FFF := by
  unfold ppuFetchAddr ppuBusWord
  split
  · split
    · exact fetchWord_below_mirror _ _
    · have h : truncateAddr ((scheduleAddr s l d).setWidth 16) = scheduleAddr s l d := by
        ext i hi
        simp [truncateAddr, show i < 16 by omega, BitVec.getLsbD_eq_getElem hi]
      rw [h]; exact scheduleAddr_below_mirror s l d
  · decide

/-- A12 is low at dot 0 of every line (R204, R205). -/
@[simp] theorem ppuBusWord_dot0 (s : State) (l : Nat) : (ppuBusWord s l 0).getLsbD 12 = false := by
  rw [ppuBusWord_a12, scheduleAddr, if_pos rfl]
  simp

/-- A12 is low where the PPU does not fetch (R205). -/
theorem ppuBusWord_idle (s : State) (l d : Nat) (h : (renderingEnabled s && renderingLine l) = false) :
    (ppuBusWord s l d).getLsbD 12 = false := by
  rw [ppuBusWord_a12, h, Bool.false_and]

/-- What the decoder reads of the state is unchanged by the gate clear of dot 0. -/
@[simp] theorem ppuBusWord_clearGate (s : State) (d l e : Nat) : ppuBusWord (clearGate s d) l e = ppuBusWord s l e := by
  unfold clearGate; split <;> rfl

@[simp] theorem renderingActive_clearGate (s : State) (d l : Nat) :
    renderingActive (clearGate s d) l = renderingActive s l := by
  unfold clearGate; split <;> rfl

/-- The edge detector a dot's edge_step starts from (R208). -/
theorem clearGate_edge (s : State) (d : Nat) :
    (clearGate s d).edge = { s.edge with firedLine := if d = 0 then false else s.edge.firedLine } := by
  unfold clearGate
  split <;> rfl

/-- The edge detector after a dot (R206, R208). -/
theorem ppuDot_edge_eq {s : State} (h : halted s = false) :
    (ppuDot s).edge =
      edgeNext s.params.a12LowMin (clearGate s s.sched.dot).edge ((currentWord s).getLsbD 12) (renderingActive s s.sched.line) := by
  rw [ppuDot_edge h, dotDecode, observe_edge, ppuFetchAddr_a12, ppuBusWord_clearGate, renderingActive_clearGate, clearGate_params]
  rfl

/-- The mapper after a dot: a tick exactly where edge_step is true (R206, R209). -/
theorem ppuDot_mapper_eq {s : State} (h : halted s = false) :
    (ppuDot s).mapper =
      if edgeFires s.params.a12LowMin (clearGate s s.sched.dot).edge ((currentWord s).getLsbD 12) (renderingActive s s.sched.line)
      then mapperTick s.mapper else s.mapper := by
  rw [ppuDot_mapper h, dotDecode, observe_mapper, ppuFetchAddr_a12, ppuBusWord_clearGate, renderingActive_clearGate, clearGate_mapper,
    clearGate_params]
  rfl

/-- A dot whose edge_step is false ticks nothing (R206). -/
theorem ppuDot_mapper_same (s : State) (h : edgeFires s.params.a12LowMin (clearGate s s.sched.dot).edge ((currentWord s).getLsbD 12)
    (renderingActive s s.sched.line) = false) : (ppuDot s).mapper = s.mapper := by
  cases hh : halted s
  · rw [ppuDot_mapper_eq hh, h]; rfl
  · rw [ppuDot_halted hh]

/-- A dot with A12 low ticks nothing (R206). -/
theorem ppuDot_mapper_low (s : State) (h : (currentWord s).getLsbD 12 = false) : (ppuDot s).mapper = s.mapper :=
  ppuDot_mapper_same s (by rw [h]; simp [edgeFires])

/-- A dot on which the decoder is not active ticks nothing (R207). -/
theorem ppuDot_mapper_inactive (s : State) (h : renderingActive s s.sched.line = false) :
    (ppuDot s).mapper = s.mapper := ppuDot_mapper_same s (by simp [edgeFires, h])

/-- A dot of a line that has ticked ticks nothing (R208). -/
theorem ppuDot_mapper_fired (s : State) (h : s.edge.firedLine = true) (hd : s.sched.dot ≠ 0) :
    (ppuDot s).mapper = s.mapper :=
  ppuDot_mapper_same s (by rw [clearGate_edge, if_neg hd]; simp [edgeFires, h])

/-- A line that has ticked stays so until its end (R208). -/
theorem ppuDot_firedLine (s : State) (h : s.edge.firedLine = true) (hd : s.sched.dot ≠ 0) :
    (ppuDot s).edge.firedLine = true := by
  cases hh : halted s
  · rw [ppuDot_edge_eq hh, clearGate_edge, if_neg hd]
    simp [edgeNext, h]
  · rw [ppuDot_halted hh, h]

end Sys2Proof.Machine
end

