-- ==== Sys2Proof/Laws/Flags.lean ====
section
/-! SUPPORT. The status byte's computations, bit by bit and in closed form (R35, R167, R177, R181). -/

namespace Sys2Proof.Machine

/-- Two bytes are equal when their eight bits are. -/
theorem byte_ext {x y : Byte}
    (h : x.getLsbD 0 = y.getLsbD 0 ∧ x.getLsbD 1 = y.getLsbD 1 ∧ x.getLsbD 2 = y.getLsbD 2 ∧ x.getLsbD 3 = y.getLsbD 3
      ∧ x.getLsbD 4 = y.getLsbD 4 ∧ x.getLsbD 5 = y.getLsbD 5 ∧ x.getLsbD 6 = y.getLsbD 6 ∧ x.getLsbD 7 = y.getLsbD 7) :
    x = y := by
  obtain ⟨h0, h1, h2, h3, h4, h5, h6, h7⟩ := h
  apply BitVec.eq_of_getLsbD_eq
  intro i hi
  have : i = 0 ∨ i = 1 ∨ i = 2 ∨ i = 3 ∨ i = 4 ∨ i = 5 ∨ i = 6 ∨ i = 7 := by omega
  rcases this with rfl | rfl | rfl | rfl | rfl | rfl | rfl | rfl <;> assumption

/-- PHP and BRK push the status with bits 5 and 4 set (R167). -/
theorem pushedStatus_brk (p : Byte) : pushedStatus p true = p ||| 0x30 := by
  apply byte_ext
  simp [pushedStatus]

/-- An interrupt pushes the status with bit 5 set and bit 4 clear (R167). -/
theorem pushedStatus_irq (p : Byte) : pushedStatus p false = (p &&& 0xCF) ||| 0x20 := by
  apply byte_ext
  simp [pushedStatus]

/-- Pulling a pushed status gives it back, if bits 5 and 4 were clear (R35, R178). -/
theorem pulledStatus_pushed (p : Byte) (b : Bool) (h : p &&& 0x30 = 0x00) : pulledStatus (pushedStatus p b) = p := by
  have h4 : p.getLsbD 4 = false := by simpa using congrArg (fun x => x.getLsbD 4) h
  have h5 : p.getLsbD 5 = false := by simpa using congrArg (fun x => x.getLsbD 5) h
  apply byte_ext
  clear h
  cases b <;> simp_all [pulledStatus, pushedStatus]

/-- What a pulled status leaves is stored as R35 says. -/
theorem pulledStatus_stored (v : Byte) : pulledStatus v &&& 0x30 = 0x00 := by
  apply byte_ext
  simp [pulledStatus]

end Sys2Proof.Machine
end

