-- ==== Sys2Proof/Laws/PerInstr.lean ====
section
/-! SUPPORT. Per-instruction facts about the syntax: each command is encoded in its row's format, with the length R83 and R89 give it. -/

namespace Sys2Proof.Laws

/-- The formats of the opcode table (R80 to R83, R91). -/
inductive Format where
  | bus
  | ppua
  | event
  | host
  | op
  deriving DecidableEq, Repr

/-- The format of a code, and its number of instruction bytes. -/
def codeForm : Code → Format × Nat
  | .stimulus (.bus _ _) => (.bus, 0)
  | .stimulus (.ppua _) => (.ppua, 0)
  | .stimulus (.event _) => (.event, 0)
  | .stimulus (.host _) => (.host, 0)
  | .op bytes => (.op, bytes.length)

end Sys2Proof.Laws

/-- The format and length of a command's row (R83, R89); an unmodelled opcode's own byte is all that is known of it. -/
def Sys2Proof.Laws.tableForm : Sys2Proof.Instr → Sys2Proof.Laws.Format × Nat
  | .irqLatchW _ _ => (.bus, 0)
  | .irqReloadW _ _ => (.bus, 0)
  | .irqDisableAckW _ _ => (.bus, 0)
  | .irqEnableW _ _ => (.bus, 0)
  | .bankW _ _ => (.bus, 0)
  | .cartPrgR _ => (.bus, 0)
  | .ramR _ => (.bus, 0)
  | .ramW _ _ => (.bus, 0)
  | .ppuRegR _ => (.bus, 0)
  | .ppuRegW _ _ => (.bus, 0)
  | .apuIoR _ => (.bus, 0)
  | .apuIoW _ _ => (.bus, 0)
  | .cartLowR _ => (.bus, 0)
  | .cartLowW _ _ => (.bus, 0)
  | .ppuaPattern0 _ => (.ppua, 0)
  | .ppuaPattern1 _ => (.ppua, 0)
  | .ppuaNametable _ => (.ppua, 0)
  | .ppuaPalette _ => (.ppua, 0)
  | .ppuaNtMirror _ => (.ppua, 0)
  | .cpuCycle => (.event, 0)
  | .ppuDot => (.event, 0)
  | .tick => (.event, 0)
  | .boundary => (.event, 0)
  | .irqService => (.event, 0)
  | .nmiService => (.event, 0)
  | .nmiEdge => (.event, 0)
  | .frameEnd => (.event, 0)
  | .hostReset => (.host, 0)
  | .hostStep _ => (.host, 0)
  | .hostBusWrite _ _ => (.host, 0)
  | .hostReadFrame => (.host, 0)
  | .hostClose => (.host, 0)
  | .brk _ => (.op, 2)
  | .php => (.op, 1)
  | .plp => (.op, 1)
  | .rti => (.op, 1)
  | .cli => (.op, 1)
  | .sei => (.op, 1)
  | .ldaImm _ => (.op, 2)
  | .staAbs _ => (.op, 3)
  | .nop => (.op, 1)
  | .jmpAbs _ => (.op, 3)
  | .unmodelledOpcode _ => (.op, 1)

/-- A command is encoded in its row's format and length. -/
def Sys2Proof.Laws.EncodedForm.Statement (i : Sys2Proof.Instr) : Prop :=
  Sys2Proof.Laws.codeForm (Sys2Proof.encode i) = Sys2Proof.Laws.tableForm i

theorem Sys2Proof.Laws.EncodedForm.irqLatchW (a : Sys2Proof.Addr) (v : Sys2Proof.Byte) : Sys2Proof.Laws.EncodedForm.Statement (.irqLatchW a v) := rfl
theorem Sys2Proof.Laws.EncodedForm.irqReloadW (a : Sys2Proof.Addr) (v : Sys2Proof.Byte) : Sys2Proof.Laws.EncodedForm.Statement (.irqReloadW a v) := rfl
theorem Sys2Proof.Laws.EncodedForm.irqDisableAckW (a : Sys2Proof.Addr) (v : Sys2Proof.Byte) : Sys2Proof.Laws.EncodedForm.Statement (.irqDisableAckW a v) := rfl
theorem Sys2Proof.Laws.EncodedForm.irqEnableW (a : Sys2Proof.Addr) (v : Sys2Proof.Byte) : Sys2Proof.Laws.EncodedForm.Statement (.irqEnableW a v) := rfl
theorem Sys2Proof.Laws.EncodedForm.bankW (a : Sys2Proof.Addr) (v : Sys2Proof.Byte) : Sys2Proof.Laws.EncodedForm.Statement (.bankW a v) := rfl
theorem Sys2Proof.Laws.EncodedForm.cartPrgR (a : Sys2Proof.Addr) : Sys2Proof.Laws.EncodedForm.Statement (.cartPrgR a) := rfl
theorem Sys2Proof.Laws.EncodedForm.ramR (a : Sys2Proof.Addr) : Sys2Proof.Laws.EncodedForm.Statement (.ramR a) := rfl
theorem Sys2Proof.Laws.EncodedForm.ramW (a : Sys2Proof.Addr) (v : Sys2Proof.Byte) : Sys2Proof.Laws.EncodedForm.Statement (.ramW a v) := rfl
theorem Sys2Proof.Laws.EncodedForm.ppuRegR (a : Sys2Proof.Addr) : Sys2Proof.Laws.EncodedForm.Statement (.ppuRegR a) := rfl
theorem Sys2Proof.Laws.EncodedForm.ppuRegW (a : Sys2Proof.Addr) (v : Sys2Proof.Byte) : Sys2Proof.Laws.EncodedForm.Statement (.ppuRegW a v) := rfl
theorem Sys2Proof.Laws.EncodedForm.apuIoR (a : Sys2Proof.Addr) : Sys2Proof.Laws.EncodedForm.Statement (.apuIoR a) := rfl
theorem Sys2Proof.Laws.EncodedForm.apuIoW (a : Sys2Proof.Addr) (v : Sys2Proof.Byte) : Sys2Proof.Laws.EncodedForm.Statement (.apuIoW a v) := rfl
theorem Sys2Proof.Laws.EncodedForm.cartLowR (a : Sys2Proof.Addr) : Sys2Proof.Laws.EncodedForm.Statement (.cartLowR a) := rfl
theorem Sys2Proof.Laws.EncodedForm.cartLowW (a : Sys2Proof.Addr) (v : Sys2Proof.Byte) : Sys2Proof.Laws.EncodedForm.Statement (.cartLowW a v) := rfl
theorem Sys2Proof.Laws.EncodedForm.ppuaPattern0 (p : Sys2Proof.PAddr) : Sys2Proof.Laws.EncodedForm.Statement (.ppuaPattern0 p) := rfl
theorem Sys2Proof.Laws.EncodedForm.ppuaPattern1 (p : Sys2Proof.PAddr) : Sys2Proof.Laws.EncodedForm.Statement (.ppuaPattern1 p) := rfl
theorem Sys2Proof.Laws.EncodedForm.ppuaNametable (p : Sys2Proof.PAddr) : Sys2Proof.Laws.EncodedForm.Statement (.ppuaNametable p) := rfl
theorem Sys2Proof.Laws.EncodedForm.ppuaPalette (p : Sys2Proof.PAddr) : Sys2Proof.Laws.EncodedForm.Statement (.ppuaPalette p) := rfl
theorem Sys2Proof.Laws.EncodedForm.ppuaNtMirror (p : Sys2Proof.PAddr) : Sys2Proof.Laws.EncodedForm.Statement (.ppuaNtMirror p) := rfl
theorem Sys2Proof.Laws.EncodedForm.cpuCycle : Sys2Proof.Laws.EncodedForm.Statement (.cpuCycle) := rfl
theorem Sys2Proof.Laws.EncodedForm.ppuDot : Sys2Proof.Laws.EncodedForm.Statement (.ppuDot) := rfl
theorem Sys2Proof.Laws.EncodedForm.tick : Sys2Proof.Laws.EncodedForm.Statement (.tick) := rfl
theorem Sys2Proof.Laws.EncodedForm.boundary : Sys2Proof.Laws.EncodedForm.Statement (.boundary) := rfl
theorem Sys2Proof.Laws.EncodedForm.irqService : Sys2Proof.Laws.EncodedForm.Statement (.irqService) := rfl
theorem Sys2Proof.Laws.EncodedForm.nmiService : Sys2Proof.Laws.EncodedForm.Statement (.nmiService) := rfl
theorem Sys2Proof.Laws.EncodedForm.nmiEdge : Sys2Proof.Laws.EncodedForm.Statement (.nmiEdge) := rfl
theorem Sys2Proof.Laws.EncodedForm.frameEnd : Sys2Proof.Laws.EncodedForm.Statement (.frameEnd) := rfl
theorem Sys2Proof.Laws.EncodedForm.hostReset : Sys2Proof.Laws.EncodedForm.Statement (.hostReset) := rfl
theorem Sys2Proof.Laws.EncodedForm.hostStep (input : Nat) : Sys2Proof.Laws.EncodedForm.Statement (.hostStep input) := rfl
theorem Sys2Proof.Laws.EncodedForm.hostBusWrite (addr value : Nat) : Sys2Proof.Laws.EncodedForm.Statement (.hostBusWrite addr value) := rfl
theorem Sys2Proof.Laws.EncodedForm.hostReadFrame : Sys2Proof.Laws.EncodedForm.Statement (.hostReadFrame) := rfl
theorem Sys2Proof.Laws.EncodedForm.hostClose : Sys2Proof.Laws.EncodedForm.Statement (.hostClose) := rfl
theorem Sys2Proof.Laws.EncodedForm.brk (pad : Sys2Proof.Byte) : Sys2Proof.Laws.EncodedForm.Statement (.brk pad) := rfl
theorem Sys2Proof.Laws.EncodedForm.php : Sys2Proof.Laws.EncodedForm.Statement (.php) := rfl
theorem Sys2Proof.Laws.EncodedForm.plp : Sys2Proof.Laws.EncodedForm.Statement (.plp) := rfl
theorem Sys2Proof.Laws.EncodedForm.rti : Sys2Proof.Laws.EncodedForm.Statement (.rti) := rfl
theorem Sys2Proof.Laws.EncodedForm.cli : Sys2Proof.Laws.EncodedForm.Statement (.cli) := rfl
theorem Sys2Proof.Laws.EncodedForm.sei : Sys2Proof.Laws.EncodedForm.Statement (.sei) := rfl
theorem Sys2Proof.Laws.EncodedForm.ldaImm (imm : Sys2Proof.Byte) : Sys2Proof.Laws.EncodedForm.Statement (.ldaImm imm) := rfl
theorem Sys2Proof.Laws.EncodedForm.staAbs (addr : Sys2Proof.Addr) : Sys2Proof.Laws.EncodedForm.Statement (.staAbs addr) := rfl
theorem Sys2Proof.Laws.EncodedForm.nop : Sys2Proof.Laws.EncodedForm.Statement (.nop) := rfl
theorem Sys2Proof.Laws.EncodedForm.jmpAbs (addr : Sys2Proof.Addr) : Sys2Proof.Laws.EncodedForm.Statement (.jmpAbs addr) := rfl
theorem Sys2Proof.Laws.EncodedForm.unmodelledOpcode (op : Sys2Proof.Byte) : Sys2Proof.Laws.EncodedForm.Statement (.unmodelledOpcode op) := rfl
end

