-- ==== Sys2Proof/Laws/Sequences.lean ====
section
/-! SUPPORT. Everything the shared sequences do: the opcode fetch, taking an interrupt (R165, R168, R179), returning from one (R178), and
the last cycles of the instructions (R174 to R184); and reads of code in RAM or PRG. -/

namespace Sys2Proof.Machine

/-! ## Code in RAM or PRG -/

/-- A read of a RAM or PRG byte answers that byte and changes the latch alone (R141, R144, R146). -/
theorem memRead_placeable (s : State) (a : Addr) (h : placeable a = true) :
    memRead s a = (byteAt s a, setOpenBus s (byteAt s a)) := by
  unfold byteAt
  split
  · exact memRead_of_ram s a ‹_›
  · simp [placeable] at h
    exact memRead_of_prg s a (by omega)

/-- What a RAM or PRG byte is depends on RAM, the image and the banking alone. -/
theorem byteAt_congr (s t : State) (a : Addr) (hx : t.ext.cart = s.ext.cart) (hb : t.ext.bankSt = s.ext.bankSt)
    (hp : t.prg = s.prg) (hr : t.ram = s.ram) : byteAt t a = byteAt s a := by
  unfold byteAt ramLoad
  rw [prgRead_congr s t a hx hb hp, hr]

@[simp] theorem fetchByte_ext_bankSt (s : State) : (fetchByte s).2.ext.bankSt = s.ext.bankSt := by simp [fetchByte]
@[simp] theorem fetchByte_ext_cpuSt (s : State) : (fetchByte s).2.ext.cpuSt = s.ext.cpuSt := by simp [fetchByte]
@[simp] theorem dummyRead_ext_bankSt (s : State) : (dummyRead s).ext.bankSt = s.ext.bankSt := by simp [dummyRead]
@[simp] theorem dummyRead_ext_cpuSt (s : State) : (dummyRead s).ext.cpuSt = s.ext.cpuSt := by simp [dummyRead]

/-! ## The last cycles of the instructions are quiet -/

theorem quiet_sei : quietAction seiEffect := quiet_then quiet_dummyRead (fun s => setP s (setI s.cpu.p)) (fun _ => rfl)
theorem quiet_cli : quietAction cliEffect := quiet_then quiet_dummyRead (fun s => setP s (clearI s.cpu.p)) (fun _ => rfl)
theorem quiet_php : quietAction phpEffect := quiet_push (fun t => pushedStatus t.cpu.p true)
theorem quiet_plp : quietAction plpEffect := by
  intro s
  simp [sameParameters, registersKept, plpEffect, pull_eq]
theorem quiet_jmp (addr : Addr) : quietAction (fun t => setPc (memRead t t.cpu.pc).2 addr) := by
  intro s
  simp [sameParameters, registersKept]
theorem quiet_load (imm : Byte) : quietAction (fun t => loadImmediate (fetchByte t).2 imm) := by
  intro s
  simp [sameParameters, registersKept, loadImmediate]
theorem quiet_enterCycle (vector : Addr) (brk : Bool) (k : Nat) (lo : Byte) :
    quietAction (fun t => (enterCycle vector brk k lo t).2) := by
  intro s
  unfold enterCycle
  split <;> simp [sameParameters, registersKept, push_eq]
theorem quiet_returnCycle (k : Nat) (lo : Byte) : quietAction (fun t => (returnCycle k lo t).2) := by
  intro s
  unfold returnCycle
  split <;> simp [sameParameters, registersKept, pull_eq]

/-- The opcode fetch takes one cycle (R180). -/
theorem passes_fetchOpcode (opcode : Byte) (n : Nat) {s : State} (h : unstopped s = true) :
    passes 1 s (fetchOpcode opcode n s) := passes_timed quiet_fetchByte _ h

theorem unstopped_fetchOpcode (opcode : Byte) (n : Nat) {s : State} (h : unstopped s = true) :
    unstopped (fetchOpcode opcode n s) = true := unstopped_timed quiet_fetchByte _ h

theorem fetchOpcode_eq (opcode : Byte) (n : Nat) {s : State} (h : unstopped s = true) :
    fetchOpcode opcode n s = setOp (countCycle (fetchByte (threeDots s)).2) (.insn opcode [] 2 n) := timed_eq _ _ h

/-! ## A write as the last action of a cycle -/

/-- A write is the same before and after the cycle is counted and the operation completed (R147, R182). -/
theorem memWrite_counted (s : State) (a : Addr) (v : Byte) (op : Op) :
    setOp (countCycle (memWrite s a v)) op = memWrite (setOp (countCycle s) op) a v := by
  unfold memWrite targetWrite
  cases route false a <;> simp only []
  · rfl
  · unfold ppuTargetWrite ppuRegWrite
    (repeat' split) <;> first | rfl | simp_all [setOp, countCycle, setSched, setCtrl, setMask, setOpenBus]
  · unfold apuTargetWrite apuIoWrite
    (repeat' split) <;> first | rfl | simp_all [setOp, countCycle, setSched, setOpenBus]
  · unfold cartLowWrite
    split <;> first | rfl | simp_all [setOp, countCycle, setSched, setOpenBus, setExt]
  · rfl
  · unfold bankWrite
    split <;> first | rfl | simp_all [setOp, countCycle, setSched, setOpenBus, setExt]
  · rfl

/-- What a write leaves in RAM: its byte if the address lies in the RAM window, all of it as before if not (R141). -/
theorem memWrite_ram (s : State) (a : Addr) (v : Byte) :
    (memWrite s a v).ram = if a.toNat ≤ 0x1FFF then sparseWrite s.ram (a.toNat % 2048) v else s.ram := by
  split
  · rw [memWrite_of_ram _ _ _ ‹_›]; rfl
  · rename_i h
    have hr : route false a ≠ .ram := by
      unfold route
      repeat' split
      all_goals first | decide | omega
    unfold memWrite targetWrite
    cases hq : route false a <;> simp only []
    · exact absurd hq hr
    · simp only [ppuTargetWrite]; repeat' split
      all_goals simp
    · simp only [apuTargetWrite]; split <;> simp
    · simp
    · rfl
    · simp
    · rfl

/-! ## Taking an interrupt -/

/-- Taking an interrupt, cycle by cycle, on an unstopped instance. -/
theorem enterInterrupt_eq (vector : Addr) (brk : Bool) (op : Nat → Byte → Op) {s : State} (h : unstopped s = true) :
    ∃ t lo, lo = (enterCycle vector brk 6 0 (threeDots t)).1 ∧
      t = setOp (countCycle (enterCycle vector brk 5 0 (threeDots
        (setOp (countCycle (enterCycle vector brk 4 0 (threeDots
          (setOp (countCycle (enterCycle vector brk 3 0 (threeDots s)).2) (op 4 0)))).2) (op 5 0)))).2) (op 6 0) ∧
      enterInterrupt vector brk op s =
        setOp (countCycle (enterCycle vector brk 7 lo (threeDots
          (setOp (countCycle (enterCycle vector brk 6 0 (threeDots t)).2) (op 7 lo)))).2) .none := by
  have h3 := unstopped_timed (quiet_enterCycle vector brk 3 0) (op 4 0) h
  have h4 := unstopped_timed (quiet_enterCycle vector brk 4 0) (op 5 0) h3
  have h5 := unstopped_timed (quiet_enterCycle vector brk 5 0) (op 6 0) h4
  have h6 := fun o => unstopped_timed (quiet_enterCycle vector brk 6 0) o h5
  refine ⟨_, _, rfl, rfl, ?_⟩
  unfold enterInterrupt
  simp only []
  rw [timed_eq _ _ (h6 _), timed_eq _ _ h5, timed_eq _ _ h4, timed_eq _ _ h3, timed_eq _ _ h]

/-- Taking an interrupt takes five cycles (R165, R179). -/
theorem passes_enterInterrupt (vector : Addr) (brk : Bool) (op : Nat → Byte → Op) {s : State} (h : unstopped s = true) :
    passes 5 s (enterInterrupt vector brk op s) := by
  have p3 := passes_timed (quiet_enterCycle vector brk 3 0) (op 4 0) h
  have p4 := passes_trans h p3 (passes_timed (quiet_enterCycle vector brk 4 0) (op 5 0) (passes_unstopped h p3))
  have p5 := passes_trans h p4 (passes_timed (quiet_enterCycle vector brk 5 0) (op 6 0) (passes_unstopped h p4))
  have p6 := fun b => passes_trans h p5 (passes_timed (quiet_enterCycle vector brk 6 0) (op 7 b) (passes_unstopped h p5))
  exact passes_trans h (p6 _) (passes_timed (quiet_enterCycle vector brk 7 _) .none (passes_unstopped h (p6 _)))

/-- What taking an interrupt leaves in the CPU registers (R165, R168, R179). -/
theorem enterInterrupt_cpu (vector : Addr) (brk : Bool) (op : Nat → Byte → Op) {s : State} (h : unstopped s = true)
    (h1 : 0xC000 ≤ vector.toNat) (h2 : 0xC000 ≤ (vector + 1).toNat) :
    (enterInterrupt vector brk op s).cpu = { s.cpu with
      pc := joinBytes (prgRead s (vector + 1)) (prgRead s vector), s := s.cpu.s - 3, p := setI s.cpu.p, op := .none } := by
  obtain ⟨t, lo, hl, ht, e⟩ := enterInterrupt_eq vector brk op h
  rw [e]
  simp only [enterCycle, push_eq, memRead_of_vector _ _ h1, memRead_of_vector _ _ h2] at hl ht ⊢
  subst hl ht
  simp [setPc, setP, setS, setOpenBus, setRam, setOp, prgRead]
  bv_omega

/-- What it leaves on the stack (R165, R167). -/
theorem enterInterrupt_ram (vector : Addr) (brk : Bool) (op : Nat → Byte → Op) {s : State} (h : unstopped s = true)
    (h1 : 0xC000 ≤ vector.toNat) (h2 : 0xC000 ≤ (vector + 1).toNat) :
    (enterInterrupt vector brk op s).ram = stackFrame s.ram s.cpu.s s.cpu.pc (pushedStatus s.cpu.p brk) := by
  have e : (255 + (255 + s.cpu.s.toNat)) % 256 = (254 + s.cpu.s.toNat) % 256 := by omega
  obtain ⟨t, lo, hl, ht, e'⟩ := enterInterrupt_eq vector brk op h
  rw [e']
  simp only [enterCycle, push_eq, memRead_of_vector _ _ h1, memRead_of_vector _ _ h2] at hl ht ⊢
  subst hl ht
  simp [stackFrame, setPc, setP, setS, setOpenBus, setRam, setOp, e]

/-- The last byte it reads is the vector's high byte (R146, R165). -/
theorem enterInterrupt_bus (vector : Addr) (brk : Bool) (op : Nat → Byte → Op) {s : State} (h : unstopped s = true)
    (h2 : 0xC000 ≤ (vector + 1).toNat) :
    (enterInterrupt vector brk op s).bus.openBus = prgRead s (vector + 1) := by
  obtain ⟨t, lo, hl, ht, e⟩ := enterInterrupt_eq vector brk op h
  rw [e]
  simp only [enterCycle, push_eq, memRead_of_vector _ _ h2] at hl ht ⊢
  subst hl ht
  simp [prgRead]

/-- Everything a service sequence leaves, wherever the interrupted code lies (R165, R168). -/
theorem serviceInterrupt_eq {s : State} (vector : Addr) (op : Nat → Byte → Op) (h : unstopped s = true)
    (h1 : 0xC000 ≤ vector.toNat) (h2 : 0xC000 ≤ (vector + 1).toNat) :
    (serviceInterrupt vector op s).cpu = { s.cpu with
      pc := joinBytes (prgRead s (vector + 1)) (prgRead s vector), s := s.cpu.s - 3, p := setI s.cpu.p, op := .none } ∧
    (serviceInterrupt vector op s).ram = stackFrame s.ram s.cpu.s s.cpu.pc (pushedStatus s.cpu.p false) ∧
    (serviceInterrupt vector op s).bus.openBus = prgRead s (vector + 1) ∧ passes 7 s (serviceInterrupt vector op s) := by
  have p1 := passes_timed quiet_dummyRead (op 2 0) h
  have p2 := passes_trans h p1 (passes_timed quiet_dummyRead (op 3 0) (passes_unstopped h p1))
  have hu := passes_unstopped h p2
  have hp : ∀ a, prgRead (timed (op 3 0) dummyRead (timed (op 2 0) dummyRead s)) a = prgRead s a := by
    intro a
    obtain ⟨-, -, ⟨k1, -, -, -, -, -, k2⟩, ⟨-, -, -, -, -, k3, -⟩⟩ := p2
    exact prgRead_congr _ _ _ k2 k3 k1
  have hc : (timed (op 3 0) dummyRead (timed (op 2 0) dummyRead s)).cpu = { s.cpu with op := op 3 0 } := by
    rw [timed_eq _ _ (passes_unstopped h p1), timed_eq _ _ h]
    simp [setOp]
  have hr : (timed (op 3 0) dummyRead (timed (op 2 0) dummyRead s)).ram = s.ram := by
    rw [timed_eq _ _ (passes_unstopped h p1), timed_eq _ _ h]
    simp
  unfold serviceInterrupt
  refine ⟨?_, ?_, ?_, passes_trans h p2 (passes_enterInterrupt _ _ _ hu)⟩
  · rw [enterInterrupt_cpu _ _ _ hu h1 h2, hp, hp, hc]
  · rw [enterInterrupt_ram _ _ _ hu h1 h2, hc, hr]
  · rw [enterInterrupt_bus _ _ _ hu h2, hp]

/-! ## Returning from an interrupt -/

/-- Returning from an interrupt takes three cycles (R178). -/
theorem passes_returnFromInterrupt {s : State} (h : unstopped s = true) : passes 3 s (returnFromInterrupt s) := by
  have p4 := passes_timed (quiet_returnCycle 4 0) (.insn 0x40 [0] 5 6) h
  have p5 := fun b => passes_trans h p4 (passes_timed (quiet_returnCycle 5 0) (.insn 0x40 [b] 6 6) (passes_unstopped h p4))
  exact passes_trans h (p5 _) (passes_timed (quiet_returnCycle 6 _) .none (passes_unstopped h (p5 _)))

/-- Returning, cycle by cycle, on an unstopped instance. -/
theorem returnFromInterrupt_eq {s : State} (h : unstopped s = true) :
    ∃ t lo, lo = (returnCycle 5 0 (threeDots t)).1 ∧
      t = setOp (countCycle (returnCycle 4 0 (threeDots s)).2) (.insn 0x40 [0] 5 6) ∧
      returnFromInterrupt s =
        setOp (countCycle (returnCycle 6 lo (threeDots
          (setOp (countCycle (returnCycle 5 0 (threeDots t)).2) (.insn 0x40 [lo] 6 6)))).2) .none := by
  have h4 := unstopped_timed (quiet_returnCycle 4 0) (.insn 0x40 [0] 5 6) h
  have h5 := fun o => unstopped_timed (quiet_returnCycle 5 0) o h4
  refine ⟨_, _, rfl, rfl, ?_⟩
  unfold returnFromInterrupt
  simp only []
  rw [timed_eq _ _ (h5 _), timed_eq _ _ h4, timed_eq _ _ h]

/-- What it leaves in the CPU registers (R178). -/
theorem returnFromInterrupt_cpu {s : State} (h : unstopped s = true) :
    (returnFromInterrupt s).cpu = { s.cpu with
      pc := joinBytes (sparseRead s.ram (256 + (s.cpu.s + 3).toNat)) (sparseRead s.ram (256 + (s.cpu.s + 2).toNat))
      s := s.cpu.s + 3
      p := pulledStatus (sparseRead s.ram (256 + (s.cpu.s + 1).toNat))
      op := .none } := by
  obtain ⟨t, lo, hl, ht, e⟩ := returnFromInterrupt_eq h
  rw [e]
  simp only [returnCycle, pull_eq] at hl ht ⊢
  subst hl ht
  simp [setPc, setP, setS, setOpenBus, setOp, BitVec.add_assoc]

theorem returnFromInterrupt_ram {s : State} (h : unstopped s = true) : (returnFromInterrupt s).ram = s.ram := by
  obtain ⟨t, lo, hl, ht, e⟩ := returnFromInterrupt_eq h
  rw [e]
  simp only [returnCycle, pull_eq] at hl ht ⊢
  subst hl ht
  simp

/-- The last byte it reads is the PC's high byte (R146, R178). -/
theorem returnFromInterrupt_bus {s : State} (h : unstopped s = true) :
    (returnFromInterrupt s).bus.openBus = sparseRead s.ram (256 + (s.cpu.s + 3).toNat) := by
  obtain ⟨t, lo, hl, ht, e⟩ := returnFromInterrupt_eq h
  rw [e]
  simp only [returnCycle, pull_eq] at hl ht ⊢
  subst hl ht
  simp [BitVec.add_assoc]

/-! ## A halted instance (R250) -/

theorem halted_fetchOpcode {s : State} (h : halted s = true) (opcode : Byte) (n : Nat) : fetchOpcode opcode n s = s :=
  timed_halted _ _ h

theorem halted_enterInterrupt {s : State} (h : halted s = true) (vector : Addr) (brk : Bool) (op : Nat → Byte → Op) :
    enterInterrupt vector brk op s = s := by simp [enterInterrupt, timed_halted _ _ h]

theorem halted_serviceInterrupt {s : State} (h : halted s = true) (vector : Addr) (op : Nat → Byte → Op) :
    serviceInterrupt vector op s = s := by simp [serviceInterrupt, timed_halted _ _ h, halted_enterInterrupt h]

theorem halted_returnFromInterrupt {s : State} (h : halted s = true) : returnFromInterrupt s = s := by
  simp [returnFromInterrupt, timed_halted _ _ h]

end Sys2Proof.Machine
end

