-- ==== Sys2Proof/Laws/Run.lean ====
section
/-! SUPPORT. Everything one CPU action and one CPU cycle can do to the host side, the scheduler, the parameters and the memories'
form (R102, R160, R190, R250), the same for a whole run of cycles, the operations of a frame, and everything a step
can be (log 2). -/

namespace Sys2Proof.Machine

/-! ## One CPU action -/

/-- What every bus access and register write of a CPU action leaves alone: the host side, the scheduler, the decoder, the arbiter,
the parameters, and the form of RAM. -/
def actionKeeps (s t : State) : Prop :=
  t.host = s.host ∧ t.sched = s.sched ∧ t.edge = s.edge ∧ t.arb = s.arb ∧ sameParameters s t
    ∧ (Memory.wf 0 2048 s.ram = true → Memory.wf 0 2048 t.ram = true)

theorem actionKeeps_refl (s : State) : actionKeeps s s := ⟨rfl, rfl, rfl, rfl, by simp [sameParameters], id⟩

theorem actionKeeps_trans {s t u : State} (h1 : actionKeeps s t) (h2 : actionKeeps t u) : actionKeeps s u := by
  obtain ⟨a1, a2, a3, a4, a5, a6⟩ := h1
  obtain ⟨b1, b2, b3, b4, b5, b6⟩ := h2
  exact ⟨by rw [b1, a1], by rw [b2, a2], by rw [b3, a3], by rw [b4, a4], sameParameters_trans a5 b5, fun h => b6 (a6 h)⟩

theorem memRead_keeps (s : State) (a : Addr) : actionKeeps s (memRead s a).2 := by
  refine ⟨by simp, by simp, by simp, by simp, by simp [sameParameters], by simp⟩

theorem memWrite_keeps (s : State) (a : Addr) (v : Byte) : actionKeeps s (memWrite s a v) := by
  refine ⟨by simp, by simp, by simp, by simp, by simp [sameParameters], ?_⟩
  intro h
  rw [memWrite_ram]
  split
  · exact sparseWrite_wf _ 2048 0 _ _ h (by omega) (by omega)
  · exact h

/-- A write of the CPU's own registers keeps everything else. -/
theorem cpu_keeps (s : State) (c : Cpu) : actionKeeps s { s with cpu := c } :=
  ⟨rfl, rfl, rfl, rfl, by simp [sameParameters], id⟩

theorem fetchByte_keeps (s : State) : actionKeeps s (fetchByte s).2 :=
  actionKeeps_trans (memRead_keeps s _) (cpu_keeps _ _)

theorem dummyRead_keeps (s : State) : actionKeeps s (dummyRead s) := memRead_keeps s _

theorem dummyStackRead_keeps (s : State) : actionKeeps s (dummyStackRead s) := memRead_keeps s _

theorem push_keeps (s : State) (v : Byte) : actionKeeps s (push s v) :=
  actionKeeps_trans (memWrite_keeps s _ _) (cpu_keeps _ _)

theorem pull_keeps (s : State) : actionKeeps s (pull s).2 :=
  actionKeeps_trans (cpu_keeps s _) (memRead_keeps _ _)

theorem enterCycle_keeps (vector : Addr) (brk : Bool) (k : Nat) (lo : Byte) (s : State) :
    actionKeeps s (enterCycle vector brk k lo s).2 := by
  unfold enterCycle
  split
  · exact push_keeps s _
  · exact push_keeps s _
  · exact actionKeeps_trans (push_keeps s _) (cpu_keeps _ _)
  · exact memRead_keeps s _
  · exact actionKeeps_trans (memRead_keeps s _) (cpu_keeps _ _)
  · exact actionKeeps_refl s

theorem serviceCycle_keeps (vector : Addr) (k : Nat) (lo : Byte) (s : State) : actionKeeps s (serviceCycle vector k lo s).2 := by
  unfold serviceCycle
  split
  · exact memRead_keeps s _
  · exact memRead_keeps s _
  · exact enterCycle_keeps _ _ _ _ s

theorem returnCycle_keeps (k : Nat) (lo : Byte) (s : State) : actionKeeps s (returnCycle k lo s).2 := by
  unfold returnCycle
  split
  · exact actionKeeps_trans (pull_keeps s) (cpu_keeps _ _)
  · exact pull_keeps s
  · exact actionKeeps_trans (pull_keeps s) (cpu_keeps _ _)
  · exact actionKeeps_refl s

theorem insnCycle_keeps (kind : OpKind) (k : Nat) (operands : List Byte) (s : State) :
    actionKeeps s (insnCycle kind k operands s).2 := by
  have hf := fetchByte_keeps s
  have hd := dummyRead_keeps s
  have hs := dummyStackRead_keeps s
  cases kind
  · show actionKeeps s (if k = 2 then _ else _ : List Byte × State).2
    split
    · exact hf
    · exact enterCycle_keeps _ _ _ _ s
  · show actionKeeps s (if k = 2 then _ else _ : State)
    split
    · exact hd
    · exact push_keeps s _
  · show actionKeeps s (if k = 2 then _ else if k = 3 then _ else _ : State)
    (repeat' split)
    · exact hd
    · exact hs
    · exact actionKeeps_trans (pull_keeps s) (cpu_keeps _ _)
  · show actionKeeps s (if k = 2 then _ else if k = 3 then _ else _ : List Byte × State).2
    (repeat' split)
    · exact hd
    · exact hs
    · exact returnCycle_keeps _ _ s
  · exact actionKeeps_trans hd (cpu_keeps _ _)
  · exact actionKeeps_trans hd (cpu_keeps _ _)
  · exact actionKeeps_trans hf (actionKeeps_trans (cpu_keeps _ _) (cpu_keeps _ _))
  · show actionKeeps s (if k = 2 then _ else if k = 3 then _ else _ : List Byte × State).2
    (repeat' split)
    · exact hf
    · exact hf
    · exact memWrite_keeps s _ _
  · exact hd
  · show actionKeeps s (if k = 2 then _ else _ : List Byte × State).2
    split
    · exact hf
    · exact actionKeeps_trans (memRead_keeps s _) (cpu_keeps _ _)

theorem ppuRegWrite_keeps (s : State) (r : BitVec 3) (v : Byte) : actionKeeps s (ppuRegWrite s r v) := by
  unfold ppuRegWrite
  split
  · exact ⟨rfl, rfl, rfl, rfl, by simp [sameParameters, setExt], id⟩
  · exact actionKeeps_refl s

theorem dmaCycle_keeps (page : Byte) (k n : Nat) (b : Byte) (s : State) : actionKeeps s (dmaCycle page k n b s).2 := by
  unfold dmaCycle
  (repeat' split)
  · exact actionKeeps_refl s
  · exact memRead_keeps s _
  · exact actionKeeps_trans (ppuRegWrite_keeps s 4 b) ⟨rfl, rfl, rfl, rfl, by simp [sameParameters], id⟩

theorem externalAccess_keeps (s : State) (r : BusRequest) : actionKeeps s (externalAccess s r).2 := by
  cases r
  · exact actionKeeps_refl s
  · exact memRead_keeps s _
  · exact memWrite_keeps s _ _

theorem writeBack_keeps (s : State) (r : CpuExecResult) (op : Op) : actionKeeps s (setOp (writeBack s r) op) := by
  simp [actionKeeps, sameParameters, writeBack]

theorem externalCycle_keeps (opcode : Byte) (k : Nat) (s : State) : actionKeeps s (externalCycle opcode k s) := by
  unfold externalCycle
  have ha := externalAccess_keeps s (Config.cpuExecRequest s.ext.cpuSt opcode k (cpuRegs s))
  generalize externalAccess s (Config.cpuExecRequest s.ext.cpuSt opcode k (cpuRegs s)) = a at *
  exact actionKeeps_trans ha (writeBack_keeps _ _ _)

/-- A CPU action past its boundary keeps what actions keep, or is a refused opcode fetch: the fetch, and the mark (R160, R190). -/
theorem performCycle_cases (s : State) :
    actionKeeps s (performCycle s) ∨
    (s.ext.cpuExec = false ∧ s.cpu.op = .fetch ∧ performCycle s = refuseOpcode (fetchByte s).2 (fetchByte s).1) := by
  unfold performCycle
  split
  · exact .inl (actionKeeps_refl s)
  · rename_i hop
    unfold fetchCycle
    simp only []
    split
    · exact .inl (actionKeeps_trans (fetchByte_keeps s) (cpu_keeps _ _))
    · split
      · exact .inl (actionKeeps_trans (fetchByte_keeps s) (cpu_keeps _ _))
      · rename_i hx
        exact .inr ⟨by simpa using hx, hop, rfl⟩
  · left
    split
    · exact actionKeeps_trans (insnCycle_keeps _ _ _ s) (cpu_keeps _ _)
    · exact cpu_keeps s _
  · exact .inl (externalCycle_keeps _ _ s)
  · exact .inl (actionKeeps_trans (serviceCycle_keeps _ _ _ s) (cpu_keeps _ _))
  · exact .inl (actionKeeps_trans (serviceCycle_keeps _ _ _ s) (cpu_keeps _ _))
  · exact .inl (actionKeeps_trans (dmaCycle_keeps _ _ _ _ s) (cpu_keeps _ _))

/-- The arbiter changes the operation and the request it takes, and nothing else (R162). -/
theorem boundary_keeps (s : State) :
    (boundary s).host = s.host ∧ (boundary s).sched = s.sched ∧ (boundary s).edge = s.edge ∧ (boundary s).mapper = s.mapper ∧
      (boundary s).bus = s.bus ∧ (boundary s).ppu = s.ppu ∧ (boundary s).ext = s.ext ∧ (boundary s).ram = s.ram ∧
      (boundary s).prg = s.prg ∧ (boundary s).params = s.params ∧ (boundary s).cpu.pc = s.cpu.pc ∧
      (boundary s).cpu.s = s.cpu.s ∧ (boundary s).cpu.p = s.cpu.p ∧
      (boundary s).cpu.a = s.cpu.a := by
  unfold boundary arbitrate
  (repeat' split) <;> exact ⟨rfl, rfl, rfl, rfl, rfl, rfl, rfl, rfl, rfl, rfl, rfl, rfl, rfl, rfl⟩

/-! ## One CPU cycle -/

/-- Everything a CPU cycle can be: a fault of its dots; dots, action and count; or dots and a refused opcode fetch (R102, R190, R250). -/
theorem cpuCycle_cases (s : State) :
    (halted (threeDots s) = true ∧ cpuCycle s = threeDots s) ∨
    (halted (threeDots s) = false ∧
      ((actionKeeps (boundary (threeDots s)) (performCycle (boundary (threeDots s))) ∧
          cpuCycle s = countCycle (performCycle (boundary (threeDots s)))) ∨
        (s.ext.cpuExec = false ∧ (boundary (threeDots s)).cpu.op = .fetch ∧
          performCycle (boundary (threeDots s)) =
            refuseOpcode (fetchByte (boundary (threeDots s))).2 (fetchByte (boundary (threeDots s))).1 ∧
          cpuCycle s = performCycle (boundary (threeDots s))))) := by
  obtain ⟨hh, -, -, -, -, -, he, -⟩ := boundary_keeps (threeDots s)
  have hx : s.ext.cpuExec = (boundary (threeDots s)).ext.cpuExec := by rw [he]; simp
  cases h : halted (threeDots s)
  · right
    refine ⟨rfl, ?_⟩
    have e : cpuCycle s = unlessHalted countCycle (performCycle (boundary (threeDots s))) := by
      rw [cpuCycle, unlessHalted, if_neg (by simp [h])]
      rfl
    rw [e, hx]
    have hb : halted (boundary (threeDots s)) = false := by rw [halted, hh]; exact h
    generalize boundary (threeDots s) = t at *
    rcases performCycle_cases t with k | ⟨kx, ko, kr⟩
    · left
      refine ⟨k, ?_⟩
      have : halted (performCycle t) = false := by rw [halted, k.1]; exact hb
      rw [unlessHalted, if_neg (by simp [this])]
    · right
      refine ⟨kx, ko, kr, ?_⟩
      have : halted (performCycle t) = true := by rw [kr]; rfl
      rw [unlessHalted, if_pos this]
  · left
    exact ⟨rfl, by simp [cpuCycle, unlessHalted, h]⟩

/-- A halted instance performs no CPU cycle (R250). -/
theorem cpuCycle_halted {s : State} (h : halted s = true) : cpuCycle s = s := by
  rw [cpuCycle, threeDots_halted h, unlessHalted, if_pos h]

/-- A CPU cycle of an unstopped instance is three dots and a count, with the host side as the dots leave it; or a refused opcode fetch,
which is not counted and needs an instance without `cpu_exec` (R102, R190). -/
theorem cpuCycle_unstopped {s : State} (h : unstopped s = true) :
    (tookCycles 1 s (cpuCycle s) ∧ (cpuCycle s).host = (dots 3 s).host) ∨
    (s.ext.cpuExec = false ∧ (cpuCycle s).sched = (dots 3 s).sched ∧
      ∃ a op, (cpuCycle s).host =
        { (dots 3 s).host with fault := some (.unmodelledOpcode a op), reply := .refused (.unmodelledOpcode a op) }) := by
  obtain ⟨hh, hs, -⟩ := boundary_keeps (threeDots s)
  rcases cpuCycle_cases s with ⟨hd, -⟩ | ⟨-, ⟨⟨kh, ks, -⟩, e⟩ | ⟨hx, -, hr, e⟩⟩
  · simp [halted_of_unstopped (unstopped_threeDots h)] at hd
  · left
    rw [e]
    generalize boundary (threeDots s) = t at *
    constructor
    · show ({ (performCycle t).sched with cpuCycles := _ } : Scheduler) = _
      rw [ks, hs]
      simp [threeDots_eq]
    · show (performCycle t).host = _
      rw [kh, hh]; rfl
  · right
    rw [e, hr]
    generalize boundary (threeDots s) = t at *
    refine ⟨hx, ?_, t.cpu.pc + 1 - 1, (fetchByte t).1, ?_⟩
    · show (fetchByte t).2.sched = _
      rw [fetchByte_sched, hs]; rfl
    · show ({ (fetchByte t).2.host with fault := _, reply := _ } : HostSide) = _
      rw [fetchByte_host, hh, fetchByte_cpu_pc]
      rfl

/-- A CPU cycle changes no parameter and keeps RAM's form (R41, R38). -/
theorem cpuCycle_parameters (s : State) : sameParameters s (cpuCycle s) ∧
    (Memory.wf 0 2048 s.ram = true → Memory.wf 0 2048 (cpuCycle s).ram = true) := by
  obtain ⟨-, -, -, -, -, -, he, hr, hp, hq, -⟩ := boundary_keeps (threeDots s)
  have h0 : sameParameters s (boundary (threeDots s)) := by
    unfold sameParameters
    rw [hp, hq, he]
    simp
  have h1 : (boundary (threeDots s)).ram = s.ram := by rw [hr]; simp
  rcases cpuCycle_cases s with ⟨-, e⟩ | ⟨-, ⟨⟨-, -, -, -, kp, kr⟩, e⟩ | ⟨-, -, hq, e⟩⟩
  · rw [e]; exact ⟨by simp [sameParameters], by simp⟩
  · rw [e, ← h1]
    exact ⟨sameParameters_trans h0 kp, kr⟩
  · rw [e, hq, ← h1]
    obtain ⟨-, -, -, -, kp, kr⟩ := fetchByte_keeps (boundary (threeDots s))
    exact ⟨sameParameters_trans h0 kp, kr⟩

/-! ## Runs of CPU cycles -/

/-- What every CPU cycle keeps, a run of them keeps. -/
theorem runWhile_keeps (R : State → State → Prop) (hr : ∀ s, R s s) (ht : ∀ s t u, R s t → R t u → R s u)
    (hc : ∀ s, R s (cpuCycle s)) (goOn : State → Bool) (n : Nat) (s : State) : R s (runWhile goOn n s) := by
  induction n generalizing s with
  | zero => exact hr s
  | succ n ih =>
    unfold runWhile
    split
    · exact ht _ _ _ (hc s) (ih _)
    · exact hc s

/-- A run is some number of cycles, after which it says to stop or its bound is reached; before, it says to go on. -/
theorem runWhile_eq (goOn : State → Bool) (n : Nat) (s : State) : ∃ m, m ≤ n ∧ runWhile goOn n s = cycles m s ∧
    (∀ k, 1 ≤ k → k < m → goOn (cycles k s) = true) ∧ (m = n ∨ (1 ≤ m ∧ goOn (cycles m s) = false)) := by
  induction n generalizing s with
  | zero => exact ⟨0, Nat.le_refl 0, rfl, fun k h1 h2 => by omega, .inl rfl⟩
  | succ n ih =>
    unfold runWhile
    split
    · rename_i hg
      obtain ⟨m, hm, he, hk, hl⟩ := ih (cpuCycle s)
      refine ⟨m + 1, by omega, he, ?_, ?_⟩
      · intro k h1 h2
        match k, h1 with
        | k + 1, _ =>
          match k with
          | 0 => exact hg
          | k + 1 => exact hk (k + 1) (by omega) (by omega)
      · rcases hl with hl | ⟨hl1, hl2⟩
        · exact .inl (by omega)
        · exact .inr ⟨by omega, hl2⟩
    · rename_i hg
      exact ⟨1, by omega, rfl, fun k h1 h2 => by omega, .inr ⟨Nat.le_refl 1, by simpa [cycles] using hg⟩⟩

/-- What every CPU cycle keeps, a frame keeps. -/
theorem frameLoop_keeps (R : State → State → Prop) (ht : ∀ s t u, R s t → R t u → R s u)
    (hc : ∀ s, R s (cpuCycle s)) (n : Nat) (s t : State) (h : frameLoop n s = some t) : R s t := by
  induction n generalizing s with
  | zero => cases h
  | succ n ih =>
    unfold frameLoop at h
    split at h
    · cases h; exact hc s
    · exact ht _ _ _ (hc s) (ih _ h)

/-- A run that stops only where its cycles say so is a beginning of the frame: it ends the frame, in the frame's own last state, or the
frame goes on from it with less fuel left (R101, log 2). -/
theorem runWhile_frame (n k : Nat) (s t : State) (h : frameLoop k s = some t) :
    (runWhile inFrameOperation (n + 1) s = t ∧ (t.sched.frameDone || halted t) = true) ∨
    (((runWhile inFrameOperation (n + 1) s).sched.frameDone || halted (runWhile inFrameOperation (n + 1) s)) = false ∧
      ∃ j, j < k ∧ frameLoop j (runWhile inFrameOperation (n + 1) s) = some t) := by
  induction n generalizing s k with
  | zero =>
    cases k with
    | zero => cases h
    | succ k =>
      have e : runWhile inFrameOperation 1 s = cpuCycle s := by simp [runWhile]
      rw [e]
      unfold frameLoop at h
      split at h
      · rename_i hd; cases h; exact .inl ⟨rfl, hd⟩
      · rename_i hd; exact .inr ⟨by simpa using hd, k, by omega, h⟩
  | succ n ih =>
    cases k with
    | zero => cases h
    | succ k =>
      rw [runWhile]
      unfold frameLoop at h
      split at h
      · rename_i hd
        have : inFrameOperation (cpuCycle s) = false := by
          rcases Bool.or_eq_true_iff.1 hd with hd | hd <;> simp [inFrameOperation, inOperation, hd]
        cases h
        exact .inl ⟨by simp [this], hd⟩
      · rename_i hd
        split
        · rcases ih k _ h with hl | ⟨h1, j, h2, h3⟩
          · exact .inl hl
          · exact .inr ⟨h1, j, by omega, h3⟩
        · exact .inr ⟨by simpa using hd, k, by omega, h⟩

/-- One operation of a frame: the frame's end, or a shorter frame left (R101). -/
theorem frameOperation_cases (k : Nat) (s t : State) (h : frameLoop k s = some t) :
    (frameOperation s = t ∧ (t.sched.frameDone || halted t) = true) ∨
    (((frameOperation s).sched.frameDone || halted (frameOperation s)) = false ∧
      ∃ j, j < k ∧ frameLoop j (frameOperation s) = some t) := runWhile_frame 513 k s t h

/-! ## One step -/

/-- Settling ends a STEP in progress whose frame is done or that a fault stopped, and changes nothing else (R101, R250). -/
theorem settle_cases (s : State) :
    (settle s = s ∧ (s.host.inStep && (s.sched.frameDone || halted s)) = false) ∨
    (settle s = finishStep s ∧ (s.host.inStep && (s.sched.frameDone || halted s)) = true) := by
  unfold settle
  split
  · exact .inr ⟨rfl, ‹_›⟩
  · rename_i h
    exact .inl ⟨rfl, Bool.eq_false_iff.2 h⟩

/-- Everything a step can be: nothing; a stimulus dropped; a STEP begun; a stimulus executed; or an operation of the frame (log 2). -/
theorem step_cases (s : State) :
    (s.host.inStep = false ∧
      ((s.host.inbox = [] ∧ step s = .next s) ∨
        ∃ x rest, s.host.inbox = x :: rest ∧
          ((internalStimulus x = true ∧ step s = .next (setHost s { s.host with inbox := rest })) ∨
            (internalStimulus x = false ∧
              ((∃ input, x = .host (.step input) ∧ commandGate .step s = none ∧
                  step s = .next (startStep input (setHost s { s.host with inbox := rest }))) ∨
                step s = takeStimulus x (setHost s { s.host with inbox := rest })))))) ∨
    (s.host.inStep = true ∧
      ((∃ x rest, s.host.inbox = x :: rest ∧ internalStimulus x = true ∧
          step s = settled (takeStimulus x (setHost s { s.host with inbox := rest }))) ∨
        step s = .next (settle (frameOperation s)))) := by
  cases hs : s.host.inStep
  · left
    refine ⟨rfl, ?_⟩
    have e : step s = stepOutside s := by simp [step, hs]
    rw [e]
    unfold stepOutside
    cases hb : s.host.inbox with
    | nil => exact .inl ⟨rfl, rfl⟩
    | cons x rest =>
      refine .inr ⟨x, rest, rfl, ?_⟩
      cases hi : internalStimulus x
      · refine .inr ⟨rfl, ?_⟩
        simp only [hi, Bool.false_eq_true, if_false]
        unfold takeOutside
        split
        · rename_i input
          have hg : commandGate .step (setHost s { s.host with inbox := rest }) = commandGate .step s := rfl
          rw [hg]
          split
          · rename_i hn
            exact .inl ⟨input, rfl, by simpa using hn, rfl⟩
          · exact .inr rfl
        all_goals exact .inr rfl
      · exact .inl ⟨rfl, by simp [hi]⟩
  · right
    refine ⟨rfl, ?_⟩
    have e : step s = stepInside s := by simp [step, hs]
    rw [e]
    unfold stepInside
    cases hb : s.host.inbox with
    | nil => exact .inr rfl
    | cons x rest =>
      cases hi : internalStimulus x
      · exact .inr (by simp [hi])
      · exact .inl ⟨x, rest, rfl, hi, by simp [hi]⟩

end Sys2Proof.Machine
end

