-- ==== Sys2Proof/Tests/Slice0.lean ====
section
/-! SUPPORT. Tests with expected results from spec/ (95_test_vectors.md and the rules' own examples), and a witness for the
hypotheses of every obligation that has some. -/

namespace Sys2Proof.Tests

open Sys2Proof Sys2Proof.Machine

/-! ## Helpers -/

/-- The next state, if there is one. -/
def nextOf : Host.Outcome State Fault Refusal → Option State
  | .next t => some t
  | .fault _ => none
  | .refused _ => none

/-- Bytes at consecutive addresses of a memory. -/
def placed (m : Memory) (a : Nat) : List Nat → Memory
  | [] => m
  | v :: rest => placed (sparseWrite m a (BitVec.ofNat 8 v)) (a + 1) rest

/-- A state with the IRQ vector $9000 and the NMI vector $A000 in PRG, and code at an address. -/
def coded (a : Nat) (bytes : List Nat) : State :=
  setPc { State.reset with prg := placed (placed [] a bytes) 0xFFFA [0x00, 0xA0, 0x00, 0x80, 0x00, 0x90] } (BitVec.ofNat 16 a)

/-- A state with these mapper fields. -/
def mapped (counter latch : Nat) (rp en irq : Bool) : State :=
  setMapper State.reset { counter := BitVec.ofNat 8 counter, latch := BitVec.ofNat 8 latch, reloadPending := rp, enabled := en, irqLine := irq }

/-- The mapper fields (counter, latch, reload, enabled, line) after a command. -/
def mapperAfter (i : Instr) (s : State) : Option (Nat × Nat × Bool × Bool × Bool) :=
  (nextOf (exec i s)).map fun t =>
    (t.mapper.counter.toNat, t.mapper.latch.toNat, t.mapper.reloadPending, t.mapper.enabled, t.mapper.irqLine)

/-- (PC, S, P, A, cycles) after a command. -/
def cpuAfter (i : Instr) (s : State) : Option (Nat × Nat × Nat × Nat × Nat) :=
  (nextOf (exec i s)).map fun t =>
    (t.cpu.pc.toNat, t.cpu.s.toNat, t.cpu.p.toNat, t.cpu.a.toNat, t.sched.cpuCycles)

/-- RAM bytes after a command. -/
def ramAfter (i : Instr) (s : State) (addrs : List Nat) : Option (List Nat) :=
  (nextOf (exec i s)).map fun t => addrs.map fun a => (sparseRead t.ram a).toNat

/-- A position of the frame, with the frame's parity and rendering. -/
def atDot (l d : Nat) (odd rendering : Bool) : State :=
  { State.reset with
    sched := { State.reset.sched with line := l, dot := d, oddFrame := odd }
    ppu := { State.reset.ppu with mask := if rendering then 0x18 else 0x00 } }

/-- The position and the parity after a dot. -/
def positionAfterDot (s : State) : Option (Nat × Nat × Bool) :=
  (nextOf (exec .ppuDot s)).map fun t => (t.sched.line, t.sched.dot, t.sched.oddFrame)

/-! ## Well-formedness: a term that each check refuses -/

/-- A field outside its row's window, register, class or set is refused, for every row that has a field to check. -/
theorem test_wellFormed_refuses :
    [Instr.irqLatchW 0xC001 0, .irqLatchW 0xE000 0, .irqReloadW 0xC000 0, .irqReloadW 0xBFFF 0, .irqDisableAckW 0xE001 0,
     .irqDisableAckW 0xDFFE 0, .irqEnableW 0xE000 0, .irqEnableW 0xDFFF 0, .bankW 0x7FFF 0, .bankW 0xC000 0, .cartPrgR 0x7FFF,
     .ramR 0x2000, .ramW 0x2000 0, .ppuRegR 0x1FFF, .ppuRegR 0x4000, .ppuRegW 0x1FFF 0, .ppuRegW 0x4000 0, .apuIoR 0x3FFF,
     .apuIoR 0x4020, .apuIoW 0x3FFF 0, .apuIoW 0x4020 0, .cartLowR 0x401F, .cartLowR 0x8000, .cartLowW 0x401F 0, .cartLowW 0x8000 0,
     .ppuaPattern0 0x1000, .ppuaPattern1 0x0FFF, .ppuaPattern1 0x2000, .ppuaNametable 0x1FFF, .ppuaNametable 0x3000,
     .ppuaPalette 0x3EFF, .ppuaNtMirror 0x2FFF, .ppuaNtMirror 0x3F00, .unmodelledOpcode 0x00, .unmodelledOpcode 0xEA].all
      (fun i => !i.wellFormed) = true := by decide

/-- The bounds of each window, register, class and set are admitted. -/
theorem test_wellFormed_admits :
    [Instr.irqLatchW 0xC000 0, .irqLatchW 0xDFFE 0, .irqReloadW 0xC001 0, .irqReloadW 0xDFFF 0, .irqDisableAckW 0xE000 0,
     .irqDisableAckW 0xFFFE 0, .irqEnableW 0xE001 0, .irqEnableW 0xFFFF 0, .bankW 0x8000 0, .bankW 0xBFFF 0, .cartPrgR 0x8000,
     .cartPrgR 0xFFFF, .ramR 0x0000, .ramR 0x1FFF, .ramW 0x1FFF 0, .ppuRegR 0x2000, .ppuRegR 0x3FFF, .ppuRegW 0x2000 0,
     .ppuRegW 0x3FFF 0, .apuIoR 0x4000, .apuIoR 0x401F, .apuIoW 0x4000 0, .apuIoW 0x401F 0, .cartLowR 0x4020, .cartLowR 0x7FFF,
     .cartLowW 0x4020 0, .cartLowW 0x7FFF 0, .ppuaPattern0 0x0FFF, .ppuaPattern1 0x1000, .ppuaNametable 0x2FFF, .ppuaPalette 0x3F00,
     .ppuaPalette 0x3FFF, .ppuaNtMirror 0x3000, .ppuaNtMirror 0x3EFF, .unmodelledOpcode 0xA2, .hostBusWrite 0x10000 0x100].all
      (fun i => i.wellFormed) = true := by decide

/-! ## Decoding: every row by words written out from the encodings of R80 to R91 -/

/-- F-BUS, {rw, addr} bit by bit (R80, R84, R88; 95 L2-D and L2-B). -/
theorem test_decode_irq_rows :
    [(0b01100000000000000, Instr.irqLatchW 0xC000 0x20), (0b01101111111111110, .irqLatchW 0xDFFE 0x20),
     (0b01100000000000001, .irqReloadW 0xC001 0x20), (0b01101111111111111, .irqReloadW 0xDFFF 0x20),
     (0b01110000000000000, .irqDisableAckW 0xE000 0x20), (0b01111111111111110, .irqDisableAckW 0xFFFE 0x20),
     (0b01110000000000001, .irqEnableW 0xE001 0x20), (0b01111000000000001, .irqEnableW 0xF001 0x20)].all
      (fun p => match decodeStimulus (.bus (BitVec.ofNat 17 p.1) 0x20) with | .ok i => decide (i = p.2) | .error _ => false) = true := by
  decide

/-- The other F-BUS rows at the bounds of their windows (R140; 95 L2-B). -/
theorem test_decode_window_rows :
    [(0b01000000000000000, Instr.bankW 0x8000 0x20), (0b01011111111111111, .bankW 0xBFFF 0x20), (0b11000000000000000, .cartPrgR 0x8000),
     (0b11111111111111111, .cartPrgR 0xFFFF), (0b10001111111111111, .ramR 0x1FFF), (0b00001111111111111, .ramW 0x1FFF 0x20),
     (0b10010000000000000, .ppuRegR 0x2000), (0b00011111111111111, .ppuRegW 0x3FFF 0x20), (0b10100000000000000, .apuIoR 0x4000),
     (0b00100000000011111, .apuIoW 0x401F 0x20), (0b10100000000100000, .cartLowR 0x4020), (0b00111111111111111, .cartLowW 0x7FFF 0x20)].all
      (fun p => match decodeStimulus (.bus (BitVec.ofNat 17 p.1) 0x20) with | .ok i => decide (i = p.2) | .error _ => false) = true := by
  decide

/-- F-PPUA (R66, R81, R94): the bounds of each class, and the first word that is too wide. -/
theorem test_decode_ppua_rows :
    [(0b00000000000000, Instr.ppuaPattern0 0x0000), (0b00111111111111, .ppuaPattern0 0x0FFF), (0b01000000000000, .ppuaPattern1 0x1000),
     (0b10000000000000, .ppuaNametable 0x2000), (0b10111111111111, .ppuaNametable 0x2FFF), (0b11111100000000, .ppuaPalette 0x3F00),
     (0b11111111111111, .ppuaPalette 0x3FFF), (0b11000000000000, .ppuaNtMirror 0x3000), (0b11111011111111, .ppuaNtMirror 0x3EFF)].all
      (fun p => match decodeStimulus (.ppua (BitVec.ofNat 16 p.1)) with | .ok i => decide (i = p.2) | .error _ => false) = true ∧
    (match decodeStimulus (.ppua 0x4000) with | .error e => decide (e = .ppuAddrWidth 0x4000) | .ok _ => false) = true := by decide

/-- Events and host commands (R91, R82). -/
theorem test_decode_event_and_host_rows :
    [(Stimulus.event .cpuCycle, Instr.cpuCycle), (.event .ppuDot, .ppuDot), (.event .tick, .tick), (.event .boundary, .boundary),
     (.event .irqService, .irqService), (.event .nmiService, .nmiService), (.event .nmiEdge, .nmiEdge), (.event .frameEnd, .frameEnd),
     (.host .reset, .hostReset), (.host (.step 0x1FF), .hostStep 0x1FF), (.host (.busWrite 0x10000 0x5A), .hostBusWrite 0x10000 0x5A),
     (.host .readFrame, .hostReadFrame), (.host .close, .hostClose)].all
      (fun p => match decodeStimulus p.1 with | .ok i => decide (i = p.2) | .error _ => false) = true := by decide

/-- F-OP (R83, R89, R90): opcode, then operand, low byte first. -/
theorem test_decode_op_rows :
    [([0x00, 0x77], Instr.brk 0x77), ([0x08], .php), ([0x28], .plp), ([0x40], .rti), ([0x58], .cli), ([0x78], .sei),
     ([0xA9, 0x80], .ldaImm 0x80), ([0x8D, 0x01, 0xE0], .staAbs 0xE001), ([0xEA], .nop), ([0x4C, 0x16, 0x80], .jmpAbs 0x8016),
     ([0xA2], .unmodelledOpcode 0xA2)].all
      (fun p => match decode (.op (p.1.map (BitVec.ofNat 8))) with | .ok i => decide (i = p.2) | .error _ => false) = true ∧
    decodeTableWord 24 0x5A00C000 = some (.irqLatchW 0xC000 0x5A) ∧ decodeTableWord 16 0x3F00 = some (.ppuaPalette 0x3F00) ∧
    decodeTableWord 8 0x8D = some (.staAbs 0x0000) := by decide

/-! ## The Mapper IRQ unit (95 L1-7, L2-M, L2-W) -/

theorem test_latch_keeps_counter : mapperAfter (.irqLatchW 0xC000 0x20) (mapped 5 0 false false false) =
    some (5, 0x20, false, false, false) := by decide
theorem test_reload_keeps_counter : mapperAfter (.irqReloadW 0xC001 0xFF) (mapped 3 0 false true false) =
    some (3, 0, true, true, false) := by decide
theorem test_disable_ack_at_zero : mapperAfter (.irqDisableAckW 0xE000 0x5A) (mapped 0 0x20 false true true) =
    some (0, 0x20, false, false, false) := by decide
theorem test_enable_asserts_nothing : mapperAfter (.irqEnableW 0xE001 0x00) (mapped 0 0x20 false false false) =
    some (0, 0x20, false, true, false) := by decide
/-- M1, M2, M4, M6, M8 and M9. -/
theorem test_tick_branches :
    [mapperAfter .tick (mapped 0 5 true true false), mapperAfter .tick (mapped 7 0 true true false),
     mapperAfter .tick (mapped 1 9 false true false), mapperAfter .tick (mapped 0 9 false true false),
     mapperAfter .tick (mapped 0 9 false false false), mapperAfter .tick (mapped 0xFF 0 false true false)] =
    [some (5, 5, false, true, false), some (0, 0, false, true, true), some (0, 9, false, true, true), some (0, 9, false, true, true),
     some (0, 9, false, false, false), some (0xFE, 0, false, true, false)] := by decide
/-- M7 and M11: a tick never clears the line. -/
theorem test_tick_keeps_the_line :
    [mapperAfter .tick (mapped 0 9 false false true), mapperAfter .tick (mapped 2 4 false true true)] =
    [some (0, 9, false, false, true), some (1, 4, false, true, true)] := by decide

/-! ## The bus (95 L2-B) -/

/-- B8: the mirrors alias one byte. -/
theorem test_ram_mirrors : ramAfter (.ramW 0x0801 0x5A) State.reset [1] = some [0x5A] ∧
    ((nextOf (exec (.ramW 0x0801 0x5A) State.reset)).bind fun t => (nextOf (exec (.ramR 0x1801) (setOpenBus t 0))).map
      fun u => u.bus.openBus) = some 0x5A := by decide
/-- B12 and B13: PPUSTATUS with the latch's low bits, and the clearing of vertical blank. -/
theorem test_ppustatus : ((nextOf (exec (.ppuRegR 0x2002) (setOpenBus (setVblank State.reset true) 0xFF))).bind fun t =>
    (nextOf (exec (.ppuRegR 0x200A) t)).map fun u => (t.bus.openBus, t.ppu.vblank, u.bus.openBus)) = some (0x9F, false, 0x1F) := by decide
/-- B14 and B15: the register mirrors. -/
theorem test_ppu_mirrors : ((nextOf (exec (.ppuRegW 0x2008 0x08) State.reset)).bind fun t =>
    (nextOf (exec (.ppuRegW 0x3FF9 0x18) t)).map fun u => (u.ppu.ctrl, u.ppu.mask, u.bus.openBus)) = some (0x08, 0x18, 0x18) := by decide
/-- B9 and B10: undriven reads leave the latch. -/
theorem test_open_bus : ((nextOf (exec (.cartLowR 0x5000) (setOpenBus State.reset 0xC0))).bind fun t =>
    (nextOf (exec (.apuIoR 0x4018) t)).map fun u => (t.bus.openBus, u.bus.openBus)) = some (0xC0, 0xC0) := by decide
/-- B16 and B11: only $4014 requests a DMA stall; a write with no device behind it still drives the latch. -/
theorem test_dma_request : ((nextOf (exec (.apuIoW 0x4014 0x02) State.reset)).bind fun t =>
    (nextOf (exec (.cartLowW 0x5000 0x33) t)).map fun u => (u.cpu.dmaPending, u.bus.openBus)) = some (some 0x02, 0x33) := by decide
/-- L2-D: a read of an IRQ register address is the cartridge's byte, and a banking write leaves the mapper alone. -/
theorem test_cartridge_read : ((nextOf (exec (.cartPrgR 0xFFFD) (coded 0x8000 []))).bind fun t =>
    (nextOf (exec (.bankW 0xBFFF 0xFF) t)).map fun u => (t.bus.openBus, u.mapper)) = some (0x80, State.reset.mapper) := by decide

/-! ## The decoder and the scheduler (95 L2-E, L2-S) -/

/-- What an F-PPUA address leaves of the edge detector. -/
def edgeAfter (i : Instr) (e : Edge) (rendering : Bool) : Option Edge :=
  (nextOf (exec i (setEdge (atDot 0 5 false rendering) e))).map fun t => t.edge

/-- E1 to E4: a rise after ten low dots ticks; after nine, with no edge, or after a tick it does not. -/
theorem test_edge_rises :
    [edgeAfter (.ppuaPattern1 0x1000) ⟨false, 10, false⟩ true, edgeAfter (.ppuaPalette 0x3F00) ⟨false, 9, false⟩ true,
     edgeAfter (.ppuaNtMirror 0x3000) ⟨true, 0, false⟩ true, edgeAfter (.ppuaPattern1 0x1FFF) ⟨false, 10, true⟩ true] =
    [some ⟨true, 0, true⟩, some ⟨true, 0, false⟩, some ⟨true, 0, false⟩, some ⟨true, 0, true⟩] := by decide
/-- E5 to E7: a rise while not active is consumed; the low run saturates. -/
theorem test_edge_lows :
    [edgeAfter (.ppuaPattern1 0x1000) ⟨false, 10, false⟩ false, edgeAfter (.ppuaPattern0 0x0000) ⟨false, 10, false⟩ true,
     edgeAfter (.ppuaNametable 0x2000) ⟨true, 3, false⟩ true] =
    [some ⟨true, 0, false⟩, some ⟨false, 10, false⟩, some ⟨false, 4, false⟩] := by decide
/-- The A12 table of L2-E: standard and reversed configuration. -/
theorem test_fetch_schedule :
    [0, 1, 4, 5, 8, 13, 257, 260, 261, 264, 265, 269, 321, 324, 325, 328, 337, 340].map (fun d =>
      ((ppuFetchAddr (setCtrl (atDot 5 0 false true) 0x08) 5 d).getLsbD 12,
       (ppuFetchAddr (setCtrl (atDot 5 0 false true) 0x10) 5 d).getLsbD 12)) =
    [(false, false), (false, false), (false, false), (false, true), (false, true), (false, true), (false, false), (false, false),
     (true, false), (true, false), (false, false), (true, false), (false, false), (false, false), (false, true), (false, true),
     (false, false), (false, false)] := by decide
/-- R66: a full PPU's word keeps out of $3000-$3FFF, whichever A12 the schedule asks for. -/
theorem test_fetch_word :
    [fetchWord true 0x3ABC, fetchWord false 0x3ABC, fetchWord true 0x0ABC, fetchWord false 0x1ABC, fetchWord true 0xFFFF] =
    [0x1ABC, 0x2ABC, 0x1ABC, 0x0ABC, 0xDFFF] := by decide
/-- S1 to S8. -/
theorem test_advance :
    [positionAfterDot (atDot 0 5 true true), positionAfterDot (atDot 10 340 false true), positionAfterDot (atDot 261 340 false true),
     positionAfterDot (atDot 261 339 true true), positionAfterDot (atDot 261 339 true false), positionAfterDot (atDot 261 339 false true),
     positionAfterDot (atDot 261 340 true false), positionAfterDot (atDot 240 340 false false)] =
    [some (0, 6, true), some (11, 0, false), some (0, 0, true), some (0, 0, false), some (261, 340, true), some (261, 340, false),
     some (0, 0, false), some (241, 0, false)] := by decide
/-- N1: vertical blank begins in dot (241, 1), before that dot's NMI sample; the frame is done in that dot. -/
theorem test_vblank_dot : (nextOf (exec .ppuDot (setCtrl (atDot 241 1 false false) 0x80))).map (fun t =>
    (t.ppu.vblank, t.arb.nmiPending, t.sched.frameDone)) = some (true, true, true) := by decide
/-- N2 and N3: an enable in vertical blank is an edge; a pending NMI stays pending. -/
theorem test_nmi_edge : ((nextOf (exec .nmiEdge (setCtrl (setVblank State.reset true) 0x80))).bind fun t =>
    (nextOf (exec .nmiEdge (setCtrl t 0x00))).map fun u => (t.arb, u.arb)) = some (⟨true, true⟩, ⟨false, true⟩) := by decide
theorem test_frame_end : (nextOf (exec .frameEnd State.reset)).map (fun t => t.sched.frameDone) = some true := by decide
/-- R102: from reset a cycle leaves the position at (261, 3) and counts one. -/
theorem test_cpu_cycle : (nextOf (exec .cpuCycle (coded 0x8000 [0xEA]))).map (fun t =>
    (t.sched.line, t.sched.dot, t.sched.cpuCycles, t.cpu.pc.toNat, t.cpu.op)) = some (261, 3, 1, 0x8001, .insn 0xEA [] 2 2) := by
  decide +kernel

/-! ## The arbiter and the service sequences (95 L2-A, L2-Q) -/

/-- A state at a boundary. -/
def bounded (dma : Option Byte) (nmi irq : Bool) (p : Byte) (cyc : Nat) : State :=
  { State.reset with
    mapper := { State.reset.mapper with irqLine := irq }
    arb := { nmiPrev := false, nmiPending := nmi }
    sched := { State.reset.sched with cpuCycles := cyc }
    cpu := { State.reset.cpu with p := p, dmaPending := dma } }

/-- A1 to A7. -/
theorem test_arbiter :
    [bounded none false true 0x00 0, bounded none false true 0x04 0, bounded none true true 0x00 0, bounded (some 0x02) true true 0x00 0,
     bounded (some 0x02) false false 0x00 1, bounded none true false 0x04 0, bounded none false false 0x00 0].map (fun s =>
      (nextOf (exec .boundary s)).map fun t => (t.cpu.op, t.cpu.dmaPending, t.arb.nmiPending)) =
    [some (.irqSeq 1 0, none, false), some (.fetch, none, false), some (.nmiSeq 1 0, none, false), some (.dma 0x02 1 513 0, none, true),
     some (.dma 0x02 1 514 0, none, false), some (.nmiSeq 1 0, none, false), some (.fetch, none, false)] := by decide
/-- Q1: the IRQ sequence. -/
theorem test_irq_service :
    cpuAfter .irqService (setP (coded 0x8016 []) 0x00) = some (0x9000, 0xFA, 0x04, 0, 7) ∧
    ramAfter .irqService (setP (coded 0x8016 []) 0x00) [0x1FD, 0x1FC, 0x1FB] = some [0x80, 0x16, 0x20] := by decide +kernel
/-- Q3: the stack wraps. -/
theorem test_irq_service_wraps :
    cpuAfter .irqService (setS (setP (setPc (coded 0x8000 []) 0x1234) 0xC3) 0x01) = some (0x9000, 0xFE, 0xC7, 0, 7) ∧
    ramAfter .irqService (setS (setP (setPc (coded 0x8000 []) 0x1234) 0xC3) 0x01) [0x101, 0x100, 0x1FF] = some [0x12, 0x34, 0xE3] := by
  decide +kernel
/-- Q2: the NMI sequence. -/
theorem test_nmi_service :
    cpuAfter .nmiService (setP (coded 0x8005 []) 0x84) = some (0xA000, 0xFA, 0x84, 0, 7) ∧
    ramAfter .nmiService (setP (coded 0x8005 []) 0x84) [0x1FD, 0x1FC, 0x1FB] = some [0x80, 0x05, 0xA4] := by decide +kernel

/-! ## The ten instructions (95 L2-O) -/

theorem test_sei : cpuAfter .sei (setP (coded 0x8000 [0x78]) 0x00) = some (0x8001, 0xFD, 0x04, 0, 2) := by decide +kernel
theorem test_cli : cpuAfter .cli (coded 0x8000 [0x58]) = some (0x8001, 0xFD, 0x00, 0, 2) := by decide +kernel
theorem test_php : cpuAfter .php (coded 0x8000 [0x08]) = some (0x8001, 0xFC, 0x04, 0, 3) ∧
    ramAfter .php (coded 0x8000 [0x08]) [0x1FD] = some [0x34] := by decide +kernel
/-- O4 and O5. -/
theorem test_plp : [0xFF, 0x20].map (fun v => cpuAfter .plp (setRam (setS (coded 0x8000 [0x28]) 0xFC) (placed [] 0x1FD [v]))) =
    [some (0x8001, 0xFD, 0xCF, 0, 4), some (0x8001, 0xFD, 0x00, 0, 4)] := by decide +kernel
/-- O6. -/
theorem test_rti : cpuAfter .rti (setRam (setS (coded 0x9003 [0x40]) 0xFA) (placed [] 0x1FB [0x20, 0x16, 0x80])) =
    some (0x8016, 0xFD, 0x00, 0, 6) := by decide +kernel
/-- O7 and O14: BRK pushes its address + 2, whatever I holds. -/
theorem test_brk : cpuAfter (.brk 0x55) (setP (coded 0x8100 [0x00, 0x55]) 0x00) = some (0x9000, 0xFA, 0x04, 0, 7) ∧
    ramAfter (.brk 0x55) (setP (coded 0x8100 [0x00, 0x55]) 0x00) [0x1FD, 0x1FC, 0x1FB] = some [0x81, 0x02, 0x30] ∧
    cpuAfter (.brk 0x55) (coded 0x8100 [0x00, 0x55]) = some (0x9000, 0xFA, 0x04, 0, 7) := by decide +kernel
/-- O8 and O9. -/
theorem test_lda : cpuAfter (.ldaImm 0x00) (setP (coded 0x8000 [0xA9, 0x00]) 0x80) = some (0x8002, 0xFD, 0x02, 0x00, 2) ∧
    cpuAfter (.ldaImm 0x80) (coded 0x8000 [0xA9, 0x80]) = some (0x8002, 0xFD, 0x84, 0x80, 2) := by decide +kernel
/-- O10: STA $E001 performs IRQ_ENABLE. -/
theorem test_sta : (nextOf (exec (.staAbs 0xE001) (setA (coded 0x8000 [0x8D, 0x01, 0xE0]) 0x01))).map (fun t =>
    (t.mapper.enabled, t.bus.openBus, t.cpu.pc, t.sched.cpuCycles)) = some (true, 0x01, 0x8003, 4) := by decide +kernel
theorem test_nop : cpuAfter .nop (coded 0x8000 [0xEA]) = some (0x8001, 0xFD, 0x04, 0, 2) := by decide +kernel
/-- O12: JMP to itself. -/
theorem test_jmp : cpuAfter (.jmpAbs 0x8016) (coded 0x8016 [0x4C, 0x16, 0x80]) = some (0x8016, 0xFD, 0x04, 0, 3) := by decide +kernel
/-- O13: the refusal, its mark and the state it leaves. -/
theorem test_unmodelled : (nextOf (exec (.unmodelledOpcode 0xA2) (coded 0x8000 [0xA2]))).map (fun t =>
    (t.host.fault, t.host.reply, t.cpu.pc, t.bus.openBus)) =
    some (some (.unmodelledOpcode 0x8000 0xA2), .refused (.unmodelledOpcode 0x8000 0xA2), 0x8001, 0xA2) := by decide +kernel

/-! ## The host commands (95 L2-H, L2-R, L1-8) -/

/-- What a command answers, and `H.fault`. -/
def replyAfter (i : Instr) (s : State) : Option (Reply × Option FaultReason) :=
  (nextOf (exec i s)).map fun t => (t.host.reply, t.host.fault)

/-- A constructed instance, a closed one, and one with a fault. -/
def constructed : State := { State.reset with host := { State.reset.host with resetDone := false } }
def closed : State := { State.reset with host := { State.reset.host with closed := true } }
def faulted : State := { State.reset with host := { State.reset.host with fault := some (.addrOutOfRange 0x10000) } }

/-- H1, H2 and H10. -/
theorem test_gates : [replyAfter (.hostStep 0) constructed, replyAfter (.hostBusWrite 0xE000 0) constructed, replyAfter .hostReset closed,
      replyAfter (.hostStep 0) closed, replyAfter (.hostBusWrite 0 0) closed, replyAfter .hostReadFrame closed] =
    [some (.fault (.notReset .step), none), some (.fault (.notReset .busWrite), none), some (.fault (.closed .reset), none),
     some (.fault (.closed .step), none), some (.fault (.closed .busWrite), none), some (.fault (.closed .readFrame), none)] := by decide
/-- H3, H4, H8, H9 and H11. -/
theorem test_host_replies : [replyAfter .hostReadFrame constructed, replyAfter (.hostBusWrite 0x10000 0) State.reset,
      replyAfter (.hostBusWrite 0xC000 0x100) State.reset, replyAfter .hostClose closed, replyAfter (.hostBusWrite 0xE000 0) State.reset] =
    [some (.frame [], none), some (.fault (.addrOutOfRange 0x10000), some (.addrOutOfRange 0x10000)),
     some (.fault (.valueOutOfRange 0x100), some (.valueOutOfRange 0x100)), some (.done, none), some (.done, none)] := by decide
/-- H5 and H7: a fault is sticky, and RESET clears it; a stored refusal is answered as fault(H.fault) (R232). -/
theorem test_sticky : [replyAfter (.hostStep 0) faulted, replyAfter .hostReset faulted,
      replyAfter (.hostStep 0) (raiseFault State.reset (.unmodelledOpcode 0x8000 0xA2))] =
    [some (.fault (.addrOutOfRange 0x10000), some (.addrOutOfRange 0x10000)), some (.done, none),
     some (.fault (.unmodelledOpcode 0x8000 0xA2), some (.unmodelledOpcode 0x8000 0xA2))] := by decide
/-- R239: an unsupported mapper, a missing image, malformed data and a parameter out of its domain make no instance. -/
theorem test_construct_errors :
    [construct Config.parameters ⟨.other 1, some []⟩ State.reset.ext, construct Config.parameters ⟨.mmc3, none⟩ State.reset.ext,
     construct Config.parameters ⟨.mmc3, some [(0x7FFF, 0x01)]⟩ State.reset.ext,
     construct { Config.parameters with counterBits := 9 } ⟨.mmc3, some []⟩ State.reset.ext,
     construct { Config.parameters with stepEndLine := 261, stepEndDot := 340 } ⟨.mmc3, some []⟩ State.reset.ext].map
      (fun r => match r with | .error e => some e | .ok _ => none) =
    [some (.unsupportedMapper 1), some .missingPrg, some .malformedPrg,
     some (.parameterOutOfDomain { Config.parameters with counterBits := 9 }),
     some (.parameterOutOfDomain { Config.parameters with stepEndLine := 261, stepEndDot := 340 })] := by decide

/-! ## Instances with other parameters (D45, I1, D9, D10, D11, D15, D16, D20, D21, D26) -/

/-- A state with other parameters. -/
def withParams (s : State) (g : Settings) : State := { s with params := g }

/-- Construction takes them, RESET keeps them, and the reset values are theirs. -/
theorem test_construct_parameters :
    (match construct { Config.parameters with resetLine := 0, resetDot := 7, resetOddFrame := true, resetS := 0xFF, nmiPresent := false }
        ⟨.mmc3, some []⟩ State.reset.ext with
      | .ok s => (nextOf (exec .hostReset s)).map fun t =>
          (s.sched.line, s.sched.oddFrame, s.cpu.s, t.sched.dot, t.cpu.s, t.params.nmiPresent)
      | .error _ => none) = some (0, true, 0xFF, 7, 0xFF, false) := by decide
/-- Without P_NMI_PRESENT a pending NMI is not taken; P_EXT_IRQ asserts the IRQ. -/
theorem test_arbiter_parameters :
    [withParams (bounded none true false 0x00 0) { Config.settings with nmiPresent := false },
     withParams (bounded none true true 0x00 0) { Config.settings with nmiPresent := false },
     withParams (bounded none false false 0x00 0) { Config.settings with extIrq := true },
     withParams (bounded none false false 0x04 0) { Config.settings with extIrq := true }].map (fun s =>
      (nextOf (exec .boundary s)).map fun t => t.cpu.op) =
    [some .fetch, some (.irqSeq 1 0), some (.irqSeq 1 0), some .fetch] := by decide
/-- P_A12_LOW_MIN = 9 lets the nine-dot gap tick and saturates at 9; without P_PRERENDER_TICKS line 261 does not tick. -/
theorem test_edge_parameters :
    [(Instr.ppuaPattern1 0x1000, withParams (setEdge (atDot 0 5 false true) ⟨false, 9, false⟩) { Config.settings with a12LowMin := 9 }),
     (.ppuaPattern0 0x0000, withParams (setEdge (atDot 0 5 false true) ⟨false, 9, false⟩) { Config.settings with a12LowMin := 9 }),
     (.ppuaPattern1 0x1000, withParams (setEdge (atDot 261 5 false true) ⟨false, 10, false⟩)
        { Config.settings with prerenderTicks := false }),
     (.ppuaPattern1 0x1000, setEdge (atDot 261 5 false true) ⟨false, 10, false⟩)].map (fun p =>
      (nextOf (exec p.1 p.2)).map fun t => t.edge) =
    [some ⟨true, 0, true⟩, some ⟨false, 9, false⟩, some ⟨true, 0, false⟩, some ⟨true, 0, true⟩] := by decide
/-- Without P_ODD_FRAME_SKIP dot (261, 340) is there; P_STEP_END_POS is where the frame ends. -/
theorem test_position_parameters :
    [withParams (atDot 261 339 true true) { Config.settings with oddFrameSkip := false },
     withParams (atDot 100 50 false false) { Config.settings with stepEndLine := 100, stepEndDot := 50 },
     withParams (atDot 241 1 false false) { Config.settings with stepEndLine := 100, stepEndDot := 50 }].map (fun s =>
      (nextOf (exec .ppuDot s)).map fun t => (t.sched.line, t.sched.dot, t.sched.frameDone)) =
    [some (261, 340, false), some (100, 51, true), some (241, 2, false)] := by decide
/-- L2-R: the reset vector is loaded, and the latch stays 0. -/
theorem test_reset_vector : (nextOf (exec .hostReset (coded 0x9000 []))).map (fun t => (t.cpu.pc, t.bus.openBus, t.cpu.s, t.cpu.p)) =
    some (0x8000, 0x00, 0xFD, 0x04) := by decide
/-- L1-8: the input is masked; from (241, 1) a STEP is one cycle (S10). -/
theorem test_step_masks_input : (nextOf (exec (.hostStep 0x1FF) (atDot 241 1 false false))).map (fun t =>
    (t.sched.joypad, t.sched.frameDone, t.sched.dot)) = some (0xFF, true, 4) := by decide +kernel

/-! ## Witnesses: for each obligation with hypotheses, states and operands that meet them -/

/-- An engine, a full PPU, an APU/IO device and a cartridge with devices. -/
def equipped : State := setExt State.reset { State.reset.ext with cpuExec := true, fullPpu := true, apuIo := true, cart := true }

/-- The same state with a STEP in progress. -/
def inside (s : State) : State := setHost s { s.host with inStep := true }

/-- The same state with these stimuli waiting. -/
def waiting (s : State) (q : List Stimulus) : State := setHost s { s.host with inbox := q }

theorem witness_DecodeEncodeRoundTrip : (Instr.irqEnableW 0xFFFF 0xFF).wellFormed = true ∧ (Instr.brk 0xFF).wellFormed = true := by decide
theorem witness_EveryPpuAddressHasItsClass : (0x3FFF : BitVec 16).toNat < 0x4000 ∧ 0x4000 ≤ (0x4000 : BitVec 16).toNat ∧
    (waiting (inside State.reset) [.ppua 0x4000]).host.inStep = true ∧
    (waiting (inside State.reset) [.ppua 0x4000]).host.inbox = .ppua 0x4000 :: [] := by decide
theorem witness_LatchWriteStoresTheByte : (0xC000 : Addr) &&& 0xE001 = 0xC000 ∧ (0xDFFE : Addr) &&& 0xE001 = 0xC000 := by decide
theorem witness_ReloadWriteSetsTheRequest : (0xC001 : Addr) &&& 0xE001 = 0xC001 ∧ (0xDFFF : Addr) &&& 0xE001 = 0xC001 := by decide
theorem witness_DisableAckWriteClearsTheLine : (0xE000 : Addr) &&& 0xE001 = 0xE000 ∧ (0xFFFE : Addr) &&& 0xE001 = 0xE000 := by decide
theorem witness_EnableWriteAssertsNothing : (0xE001 : Addr) &&& 0xE001 = 0xE001 ∧ (0xFFFF : Addr) &&& 0xE001 = 0xE001 := by decide
/-- L1-6: latch 0 at its only tick, latch 255 at its last. -/
theorem witness_CountingLaw : (1 ≤ 1 ∧ 1 ≤ (0 : Byte).toNat + 1) ∧ (1 ≤ 256 ∧ 256 ≤ (255 : Byte).toNat + 1) ∧
    (ticks 1 (mapped 9 0 true true false).mapper).irqLine = true ∧ (ticks 255 (mapped 9 255 true true false).mapper).irqLine = false ∧
    (ticks 256 (mapped 9 255 true true false).mapper).irqLine = true := by decide +kernel
theorem witness_NoBusAccessAssertsTheLine : State.reset.mapper.irqLine = false ∧
    (nextOf (exec (.hostBusWrite 0xE001 0) State.reset)).isSome = true := by decide
theorem witness_TheLineFallsOnlyOnAcknowledge : neverAcknowledges .tick = true ∧ neverAcknowledges (.hostBusWrite 0xE001 0) = true ∧
    neverAcknowledges (.staAbs 0xDFFE) = true ∧ (mapped 0 0 false true true).mapper.irqLine = true ∧
    (nextOf (exec .tick (mapped 0 0 false true true))).isSome = true := by decide
theorem witness_RamWriteThenRead : Memory.wf 0 2048 State.reset.ram = true ∧ (0x0000 : Addr).toNat ≤ 0x1FFF ∧
    (0x1FFF : Addr).toNat ≤ 0x1FFF := by decide
theorem witness_PpuRegisterWrites : (0x2000 ≤ (0x2000 : Addr).toNat ∧ (0x2000 : Addr).toNat ≤ 0x3FFF) ∧
    (0x2000 ≤ (0x3FFF : Addr).toNat ∧ (0x3FFF : Addr).toNat ≤ 0x3FFF) := by decide
/-- Every clause: with and without a full PPU, register 2 and another. -/
theorem witness_PpuRegisterReads : (0x2000 ≤ (0x2002 : Addr).toNat ∧ (0x2002 : Addr).toNat ≤ 0x3FFF ∧ (0x2002 : Addr).toNat % 8 = 2) ∧
    (0x2000 ≤ (0x3FFF : Addr).toNat ∧ (0x3FFF : Addr).toNat ≤ 0x3FFF ∧ (0x3FFF : Addr).toNat % 8 ≠ 2) ∧
    State.reset.ext.fullPpu = false ∧ equipped.ext.fullPpu = true := by decide
theorem witness_ApuIoAccess : (0x4000 ≤ (0x4000 : Addr).toNat ∧ (0x4000 : Addr).toNat ≤ 0x401F) ∧
    (0x4000 ≤ (0x401F : Addr).toNat ∧ (0x401F : Addr).toNat ≤ 0x401F) ∧ State.reset.ext.apuIo = false ∧ equipped.ext.apuIo = true := by
  decide
theorem witness_CartridgeAccess : 0x8000 ≤ (0x8000 : Addr).toNat ∧ (0xBFFF : Addr).toNat ≤ 0xBFFF ∧ 0x8000 ≤ (0xFFFF : Addr).toNat ∧
    (0x4020 ≤ (0x4020 : Addr).toNat ∧ (0x7FFF : Addr).toNat ≤ 0x7FFF) ∧ State.reset.ext.cart = false ∧ equipped.ext.cart = true := by decide
theorem witness_MapperSeesOnlyItsOwnRange : (0xBFFF : Addr).toNat < 0xC000 ∧ 0xC000 ≤ (0xC000 : Addr).toNat ∧
    (0xDFFF : Addr).toNat < 0xE000 ∧ ¬((0xE000 : Addr).toNat < 0xE000) ∧ 0xC000 ≤ (0xFFFF : Addr).toNat := by decide
theorem witness_PpuAddressRows : (Instr.ppuaPattern0 0x0FFF).wellFormed = true ∧ (Instr.ppuaNametable 0x2000).wellFormed = true ∧
    (Instr.ppuaPattern1 0x1FFF).wellFormed = true ∧ (Instr.ppuaPalette 0x3F00).wellFormed = true ∧
    (Instr.ppuaNtMirror 0x3EFF).wellFormed = true := by decide
/-- The first and the last dot; each clause, at the bounds of the lines with no fetches. -/
theorem witness_FetchScheduleDrivesA12 : (0 : Nat) ≤ 340 ∧ (340 : Nat) ≤ 340 ∧
    (ppuFetchAddr (setCtrl (atDot 5 0 false true) 0x20) 5 261).getLsbD 12 = true ∧ State.reset.ext.fullPpu = false ∧
    (State.reset.ppu.mask.getLsbD 3 = false ∧ State.reset.ppu.mask.getLsbD 4 = false) ∧ (240 ≤ 240 ∧ 240 ≤ 260) ∧
    (240 ≤ 260 ∧ 260 ≤ 260) := by decide
theorem witness_OneTickPerLine : ((atDot 10 0 false true).sched.dot = 0 ∧ 341 ≤ 341) ∧
    (setEdge (atDot 10 1 false true) ⟨true, 0, true⟩).edge.firedLine = true ∧
    0 < (atDot 10 1 false true).sched.dot ∧ (atDot 10 1 false true).sched.dot + 340 ≤ 341 := by decide
theorem witness_NoTickOutsideRendering : State.reset.ppu.mask.getLsbD 3 = false ∧ State.reset.ppu.mask.getLsbD 4 = false ∧
    240 ≤ (atDot 240 0 false true).sched.line ∧ (atDot 240 0 false true).sched.dot ≤ 340 ∧ 341 * 240 + 0 + 7161 ≤ 341 * 261 ∧
    (withParams (atDot 261 0 false true) { Config.settings with prerenderTicks := false }).params.prerenderTicks = false ∧
    341 * 261 + 0 + 341 ≤ 341 * 262 := by decide
/-- A state of the standard configuration, on line 0 and on line 261. -/
def standard (l : Nat) : State := setCtrl (atDot l 0 false true) 0x08
theorem witness_StandardConfigurationTicks :
    ((standard 0).ppu.mask.getLsbD 3 || (standard 0).ppu.mask.getLsbD 4) = true ∧ (standard 0).ppu.ctrl.getLsbD 5 = false ∧
    (standard 0).ppu.ctrl.getLsbD 4 = false ∧ (standard 0).ppu.ctrl.getLsbD 3 = true ∧ (standard 0).sched.dot = 0 ∧
    (standard 0).sched.line = 0 ∧ (standard 261).sched.line = 261 ∧ unstopped (standard 0) = true ∧
    unstopped (standard 261) = true ∧ (standard 261).params.prerenderTicks = true ∧ (standard 0).params.a12LowMin ≤ 261 ∧
    (withParams (standard 0) { Config.settings with prerenderTicks := false }).params.prerenderTicks = false := by decide
/-- DotMovesThePosition, DotUpdatesVblankThenSamplesNmi, CpuCycleIsThreeDots: no fault, a standing fault, and an unstopped instance
with and without a full PPU. -/
theorem witness_dots_and_cycles : State.reset.host.fault = none ∧ unstopped State.reset = true ∧ unstopped equipped = true ∧
    (dots 3 faulted).host.fault ≠ none ∧ (dots 3 State.reset).host.fault = none ∧
    (performCycle (boundary (dots 3 State.reset))).host.fault = none ∧
    (performCycle (boundary (dots 3 (coded 0x8000 [0xA2])))).host.fault ≠ none := by decide +kernel
theorem witness_IrqIsTakenInTheTicksOwnCycle : unstopped (bounded none false true 0x00 0) = true ∧ (bounded none false true 0x00 0).cpu.op = .none ∧
    (bounded none false true 0x00 0).cpu.dmaPending = none ∧ (dots 3 (bounded none false true 0x00 0)).arb.nmiPending = false ∧
    (dots 3 (bounded none false true 0x00 0)).mapper.irqLine = true ∧ (bounded none false true 0x00 0).cpu.p.getLsbD 2 = false ∧
    (withParams (bounded none true false 0x00 0) { Config.settings with nmiPresent := false, extIrq := true }).params.extIrq = true := by
  decide +kernel
/-- Every clause: inside an operation, DMA, NMI, IRQ, and the two ways to the next instruction. -/
theorem witness_BoundaryPriority : (setOp State.reset .fetch).cpu.op ≠ .none ∧ (bounded (some 2) true true 0 0).cpu.dmaPending = some 2 ∧
    ((bounded none true true 0 0).cpu.dmaPending = none ∧ (bounded none true true 0 0).arb.nmiPending = true) ∧
    ((bounded none false true 0 0).mapper.irqLine = true ∧ (bounded none false true 0 0).cpu.p.getLsbD 2 = false) ∧
    (bounded none false true 0x04 0).cpu.p.getLsbD 2 = true ∧ (bounded none false false 0 0).mapper.irqLine = false ∧
    State.reset.params.nmiPresent = true ∧ State.reset.params.extIrq = false ∧
    (withParams State.reset { Config.settings with nmiPresent := false, extIrq := true }).params.nmiPresent = false := by decide
/-- From an even and an odd cycle count; the last page in RAM and the first that is not. -/
theorem witness_DmaStallTakes513Or514Cycles : (bounded (some 0x1F) false false 0 0).cpu.op = .none ∧
    (bounded (some 0x1F) false false 0 0).cpu.dmaPending = some 0x1F ∧ (0x1F : Byte).toNat < 0x20 ∧ ¬((0x20 : Byte).toNat < 0x20) ∧
    (bounded (some 0x20) false false 0 1).cpu.dmaPending = some 0x20 ∧ 1 ≤ 512 ∧ 512 < 513 + 0 % 2 ∧ 513 < 513 + 1 % 2 ∧
    unstopped (bounded (some 0x1F) false false 0 0) = true ∧ 0 < 256 ∧ 255 < 256 := by decide
theorem witness_RtiUndoesTheIrqService : unstopped State.reset = true ∧ Memory.wf 0 2048 State.reset.ram = true ∧
    State.reset.cpu.p &&& 0x30 = 0x00 := by decide
/-- The service sequences and every instruction: an unstopped instance, and, for the clauses on the bytes read, code at the two ends of
RAM and PRG and across the wrap of the PC. -/
theorem witness_code_in_memory : unstopped State.reset = true ∧ inMemory 0x1FFD 3 = true ∧ inMemory 0x1FFE 3 = false ∧ inMemory 0x8000 3 = true ∧
    inMemory 0x7FFF 1 = false ∧ inMemory 0xFFFF 2 = true := by decide
theorem witness_StaStoresTheAccumulator : (0x1FFF : Addr).toNat ≤ 0x1FFF ∧
    ¬((0x0000 : Addr).toNat ≤ 0x1FFF ∧ (0x1FFF : Addr).toNat % 2048 = (0x0000 : Addr).toNat % 2048) ∧ (0x0000 : Addr).toNat ≤ 0x1FFF := by
  decide
theorem witness_UnmodelledOpcodeIsRefused : unstopped State.reset = true ∧ State.reset.ext.cpuExec = false := by decide
theorem witness_UnmodelledOpcodeGoesToTheEngine : unstopped equipped = true ∧ equipped.ext.cpuExec = true ∧
    (unstopped (setOp equipped (.external 0xA2 2)) = true ∧ (setOp equipped (.external 0xA2 2)).ext.cpuExec = true ∧
      (setOp equipped (.external 0xA2 2)).cpu.op = .external 0xA2 2) := by decide
theorem witness_CodeInMemoryLeavesThePpuToTheDots : readingForm (.brk 0) = some (7, 2) ∧ inMemory (coded 0x8000 [0x00]).cpu.pc 2 = true ∧
    readingForm .irqService = some (7, 1) ∧ inMemory State.reset.cpu.pc 3 = true ∧ unstopped (coded 0x8000 [0x00]) = true := by decide
theorem witness_ConstructionIsPowerOn : Config.parameters.valid = true ∧
    Parameters.valid { Config.parameters with stepEndLine := 0, stepEndDot := 340, resetLine := 240, nmiPresent := false } = true ∧
    Parameters.valid { Config.parameters with resetLine := 262 } = false ∧
    ({ Config.parameters with counterBits := 9 } : Parameters).toFixedParameters ≠ Config.fixedParameters ∧
    Memory.wf 0x8000 0x10000 [(0x7FFF, 0x01)] = false ∧ Memory.wf 0x8000 0x10000 [(0x8000, 0x01), (0xFFFF, 0x01)] = true := by decide
/-- ResetSetsEveryField, StepRunsOneFrame, BusWriteCommand, ReadFrameAndClose: a state in each condition. -/
theorem witness_lifecycle : condition constructed = .constructed ∧ condition closed = .closed ∧ condition faulted = .faulted ∧
    condition State.reset = .running ∧ closed.host.closed = true ∧ constructed.host.resetDone = false ∧
    State.reset.host.fault = none ∧ State.reset.sched.line ≤ 261 ∧ State.reset.sched.dot ≤ 340 ∧ State.reset.host.inStep = false ∧
    State.reset.host.inbox = [] ∧ State.reset.params.valid = true ∧ State.reset.params.stepEndDot ≤ 336 := by decide
theorem witness_FramesTakeTheirCpuCycles : (State.reset.sched.line = 261 ∧ State.reset.sched.dot = 0 ∧ State.reset.sched.oddFrame = false) ∧
    ((atDot 241 2 true true).sched.line = 241 ∧ 2 ≤ (atDot 241 2 true true).sched.dot ∧ (atDot 241 4 true true).sched.dot ≤ 4) ∧
    (atDot 241 4 true true).host.fault = none ∧ (atDot 241 4 true true).host.closed = false ∧
    (atDot 241 4 true true).host.resetDone = true ∧ equipped.ext.cpuExec = true ∧ unstopped equipped = true ∧
    State.reset.params.stepEndLine = 241 ∧ State.reset.params.stepEndDot = 1 := by decide
theorem witness_BusWriteCommand : 0xFFFF < 0x10000 ∧ (0xFFFF ≤ 0xFFFF ∧ 0xFF < 0x100) ∧ (0xFFFF ≤ 0xFFFF ∧ 0xFF ≤ 0xFF) := by decide
theorem witness_FaultIsSticky : faulted.host.closed = false ∧ faulted.host.resetDone = true ∧
    faulted.host.fault = some (.addrOutOfRange 0x10000) ∧ takesTime .cpuCycle = true ∧ takesTime (.staAbs 0xE000) = true := by decide
theorem witness_FrameIsStableBetweenSteps : (∀ input, Instr.hostBusWrite 0xE000 0 ≠ .hostStep input) ∧
    Instr.hostBusWrite 0xE000 0 ≠ .hostReset ∧ (nextOf (exec (.hostBusWrite 0xE000 0) State.reset)).isSome = true :=
  ⟨fun _ => Instr.noConfusion, by decide, by decide⟩
/-- Each clause: nothing waiting, a STEP's own stimulus and the host's, outside a STEP and inside one. -/
theorem witness_StepTakesTheOldestStimulus :
    (State.reset.host.inStep = false ∧ State.reset.host.inbox = []) ∧
    (internalStimulus (.event .frameEnd) = true ∧ internalStimulus (.event .tick) = false ∧
      internalStimulus (.host (.step 0)) = false ∧ internalStimulus (.bus 0x0C000 0) = true) ∧
    (waiting State.reset [.host (.step 0)]).host.inbox = .host (.step 0) :: [] ∧
    (match decodeStimulus (.host (.step 0)) with | .ok i => decide (i = .hostStep 0) | .error _ => false) = true ∧
    (match decodeStimulus (.event .frameEnd) with | .ok i => decide (i = .frameEnd) | .error _ => false) = true ∧
    (inside State.reset).host.inStep = true ∧ (inside State.reset).host.inbox = [] ∧
    (waiting (inside State.reset) [.event .frameEnd]).host.inbox = .event .frameEnd :: [] ∧
    (nextOf (exec .frameEnd (inside State.reset))).isSome = true ∧
    (waiting (inside State.reset) [.host .close]).host.inbox = .host .close :: [] := by decide
/-- The frame is not done after a command. -/
def frameGoesOn (i : Instr) (s : State) : Bool := ((nextOf (exec i s)).map fun t => t.sched.frameDone) == some false

/-- An instruction in a STEP's first operation; and states in which the arbiter chooses the IRQ, and the NMI. -/
theorem witness_StepRunsTheDecodedInstruction :
    (inside (coded 0x8000 [0xEA])).host.inStep = true ∧ (inside (coded 0x8000 [0xEA])).host.inbox = [] ∧
    (inside (coded 0x8000 [0xEA])).cpu.op = .none ∧ (boundary (threeDots (inside (coded 0x8000 [0xEA])))).cpu.op = .fetch ∧
    inMemory (coded 0x8000 [0xEA]).cpu.pc 1 = true ∧
    (match decodeOp (bytesAt (coded 0x8000 [0xEA]) 0x8000 1) with | .ok r => decide (r = (.nop, [])) | .error _ => false) = true ∧
    frameGoesOn .nop (inside (coded 0x8000 [0xEA])) = true := by decide +kernel
theorem witness_StepTakesTheInterrupt :
    (inside (bounded none false true 0 0)).host.inbox = [] ∧ (inside (bounded none false true 0 0)).cpu.op = .none ∧
    (boundary (threeDots (inside (bounded none false true 0 0)))).cpu.op = .irqSeq 1 0 ∧
    frameGoesOn .irqService (inside (bounded none false true 0 0)) = true ∧
    (boundary (threeDots (inside (bounded none true true 0 0)))).cpu.op = .nmiSeq 1 0 ∧
    unstopped (inside (bounded none true true 0 0)) = true ∧
    (dots 21 (inside (bounded none true true 0 0))).sched.frameDone = false ∧
    inMemory (inside (bounded none true true 0 0)).cpu.pc 1 = true := by decide +kernel
theorem witness_StepKeepsLegalStates : legalState State.reset = true ∧ legalState (inside (coded 0x8000 [0xEA])) = true ∧
    (nextOf (step (inside (coded 0x8000 [0xEA])))).isSome = true := by decide +kernel
theorem witness_ParametersNeverChange : (nextOf (exec .tick equipped)).isSome = true := by decide

/-! ## The step (log 2) -/

/-- R263: nothing waits and no STEP is in progress, so nothing happens; a STEP's own stimulus has no STEP to act in. -/
theorem test_step_idle : nextOf (step State.reset) = some State.reset ∧
    nextOf (step (waiting State.reset [.event .frameEnd])) = some State.reset := by decide
/-- A waiting STEP begins; R66, R94: in it a word too wide ticks as its low 14 bits do, and ends it with the fault. -/
theorem test_step_begins : ((nextOf (step (waiting State.reset [.host (.step 0x1FF)]))).map fun t =>
      (t.sched.joypad, t.host.inStep, t.sched.cpuCycles)) = some (0xFF, true, 0) ∧
    ((nextOf (step (waiting (inside (setEdge (atDot 0 5 false true) ⟨false, 10, false⟩)) [.ppua 0x5000]))).map fun t =>
      (t.edge, t.host.fault, t.host.inStep)) = some (⟨true, 0, true⟩, some (.ppuAddrWidth 0x5000 0 5), false) := by decide

/-! ## withFetchWord: the very next step runs the instruction -/

/-- An F-OP word and an F-BUS word, as the first thing after reset (log 4). -/
theorem test_with_fetch_word :
    ((nextOf (step (State.reset.withFetchWord 8 0x78))).map fun t => (t.cpu.pc, t.sched.cpuCycles)) = some (1, 2) ∧
    ((nextOf (step (State.reset.withFetchWord 24 0x5A00C000))).map fun t => t.mapper.latch) = some 0x5A := by decide +kernel

end Sys2Proof.Tests
end

section
/-! SUPPORT. Every operation of the machine keeps a legal state legal, one lemma per operation from the status byte up to the step
(O58). In the middle of a STEP the frame may be done, or a fault raised, before the STEP is settled: `Sound` is what holds there too,
and `settle` makes a sound state legal. -/

namespace Sys2Proof.Machine

/-! ## Sound states -/

/-- What holds of a legal state and goes on holding until a STEP is settled: a STEP in progress was begun in Running, but its frame may
be done by now, or a fault raised. -/
structure Sound (s : State) : Prop where
  position : legalPosition s = true
  lowRun : s.edge.lowRun ≤ s.params.a12LowMin
  status : statusStored s.cpu.p = true
  op : opLegal s.cpu.op = true
  ram : Memory.wf 0 2048 s.ram = true
  prg : Memory.wf 0x8000 0x10000 s.prg = true
  fb : FrameBuf.wf s.host.fb = true
  frame : FrameBuf.wf s.host.frame = true
  begun : s.host.inStep = true → s.host.resetDone = true ∧ s.host.closed = false
  params : s.params.valid = true

theorem legalPosition_iff (s : State) : legalPosition s = true ↔ s.sched.line < 262 ∧ s.sched.dot < 341 := by
  simp only [legalPosition, Bool.and_eq_true, decide_eq_true_eq]
  exact Iff.rfl

/-- A state is legal exactly when it is sound and a STEP in progress in it has nothing to settle. -/
theorem legalState_iff (s : State) :
    legalState s = true ↔ Sound s ∧ (s.host.inStep = true → halted s = false ∧ s.sched.frameDone = false) := by
  constructor
  · intro h
    simp only [legalState, memoriesLegal, stepLegal, Bool.and_eq_true, Bool.or_eq_true, Bool.not_eq_true',
      decide_eq_true_eq] at h
    obtain ⟨⟨⟨⟨⟨⟨hpos, hlow⟩, hst⟩, hop⟩, ⟨⟨hram, hprg⟩, hfb⟩, hframe⟩, hstep⟩, hpar⟩ := h
    have hbegun : s.host.inStep = true → s.host.resetDone = true ∧ s.host.closed = false := fun hi => by simp_all
    have hgoes : s.host.inStep = true → halted s = false ∧ s.sched.frameDone = false := fun hi => by simp_all
    exact ⟨⟨hpos, hlow, hst, hop, hram, hprg, hfb, hframe, hbegun, hpar⟩, hgoes⟩
  · rintro ⟨h, hstep⟩
    cases hi : s.host.inStep
    · simp [legalState, memoriesLegal, stepLegal, hi, h.position, h.lowRun, h.status, h.op, h.ram, h.prg, h.fb, h.frame, h.params]
    · simp [legalState, memoriesLegal, stepLegal, h.position, h.lowRun, h.status, h.op, h.ram, h.prg, h.fb, h.frame, h.params,
        h.begun hi, hstep hi]

/-- Outside a STEP, sound is legal. -/
theorem Sound.legal_of_idle {s : State} (h : Sound s) (hi : s.host.inStep = false) : legalState s = true :=
  (legalState_iff s).2 ⟨h, fun hs => by simp [hi] at hs⟩

section
variable {s t : State}

/-- What keeps the host side, the scheduler, the decoder and the parameters keeps a state sound, if RAM, the status byte and the
operation are as they should be. -/
theorem Sound.transport (h : Sound s) (hh : t.host = s.host) (hs : t.sched = s.sched) (he : t.edge = s.edge)
    (hq : t.params = s.params) (hp : t.prg = s.prg) (hram : Memory.wf 0 2048 t.ram = true)
    (hst : statusStored t.cpu.p = true) (hop : opLegal t.cpu.op = true) : Sound t where
  position := by rw [legalPosition, hs]; exact h.position
  lowRun := by rw [he, hq]; exact h.lowRun
  status := hst
  op := hop
  ram := hram
  prg := by rw [hp]; exact h.prg
  fb := by rw [hh]; exact h.fb
  frame := by rw [hh]; exact h.frame
  begun := by rw [hh]; exact h.begun
  params := by rw [hq]; exact h.params

/-- A CPU action keeps a state sound if it leaves a stored status byte and a legal operation. -/
theorem Sound.of_action (h : Sound s) (k : actionKeeps s t) (hst : statusStored t.cpu.p = true)
    (hop : opLegal t.cpu.op = true) : Sound t := by
  obtain ⟨hh, hs, he, -, ⟨hprg, hpar, -⟩, hram⟩ := k
  exact h.transport hh hs he hpar hprg (hram h.ram) hst hop

/-! ## Register updates that soundness does not read, or reads in part -/

theorem Sound.setOpenBus (h : Sound s) (v : Byte) : Sound (setOpenBus s v) := { h with }
theorem Sound.setMapper (h : Sound s) (m : Mapper) : Sound (setMapper s m) := { h with }
theorem Sound.setArb (h : Sound s) (a : Arbiter) : Sound (setArb s a) := { h with }
theorem Sound.setExt (h : Sound s) (x : External) : Sound (setExt s x) := { h with }
theorem Sound.setDma (h : Sound s) (v : Option Byte) : Sound (setDma s v) := { h with }
theorem Sound.setCtrl (h : Sound s) (v : Byte) : Sound (setCtrl s v) := { h with }
theorem Sound.setMask (h : Sound s) (v : Byte) : Sound (setMask s v) := { h with }
theorem Sound.setVblank (h : Sound s) (v : Bool) : Sound (setVblank s v) := { h with }
theorem Sound.countCycle (h : Sound s) : Sound (countCycle s) := { h with }
theorem Sound.endFrame (h : Sound s) : Sound (endFrame s) := { h with }
theorem Sound.answer (h : Sound s) (r : Reply) : Sound (answer s r) := { h with }
theorem Sound.raiseFault (h : Sound s) (r : FaultReason) : Sound (raiseFault s r) := { h with }
theorem Sound.setInbox (h : Sound s) (q : List Stimulus) : Sound (setHost s { s.host with inbox := q }) := { h with }
theorem Sound.setRam (h : Sound s) {m : Memory} (hm : Memory.wf 0 2048 m = true) : Sound (setRam s m) := { h with ram := hm }

theorem Sound.setOp (h : Sound s) {o : Op} (ho : opLegal o = true) : Sound (setOp s o) := { h with op := ho }

theorem Sound.setEdge (h : Sound s) {e : Edge} (he : e.lowRun ≤ s.params.a12LowMin) : Sound (setEdge s e) :=
  { h with lowRun := he }

theorem Sound.setSched (h : Sound s) {c : Scheduler} (hc : c.line < 262 ∧ c.dot < 341) : Sound (setSched s c) :=
  { h with position := (legalPosition_iff _).2 hc }

/-! ## The bus targets (R141 to R145) -/

theorem Sound.bankWrite (h : Sound s) (a : Addr) (v : Byte) : Sound (bankWrite s a v) := by
  unfold Machine.bankWrite; split
  · exact h.setExt _
  · exact h

theorem Sound.cartLowRead (h : Sound s) (a : Addr) : Sound (cartLowRead s a).2 := by
  unfold Machine.cartLowRead; split
  · exact h.setExt _
  · exact h

theorem Sound.cartLowWrite (h : Sound s) (a : Addr) (v : Byte) : Sound (cartLowWrite s a v) := by
  unfold Machine.cartLowWrite; split
  · exact h.setExt _
  · exact h

theorem Sound.apuIoRead (h : Sound s) (a : Addr) : Sound (apuIoRead s a).2 := by
  unfold Machine.apuIoRead; split
  · exact h.setExt _
  · exact h

theorem Sound.apuIoWrite (h : Sound s) (a : Addr) (v : Byte) : Sound (apuIoWrite s a v) := by
  unfold Machine.apuIoWrite; split
  · exact h.setExt _
  · exact h

theorem Sound.ppuRegRead (h : Sound s) (r : BitVec 3) : Sound (ppuRegRead s r).2 := by
  unfold Machine.ppuRegRead; split
  · exact h.setExt _
  · exact h

theorem Sound.ppuRegWrite (h : Sound s) (r : BitVec 3) (v : Byte) : Sound (ppuRegWrite s r v) := by
  unfold Machine.ppuRegWrite; split
  · exact h.setExt _
  · exact h

theorem Sound.ppuStatusBits (h : Sound s) : Sound (ppuStatusBits s).2 := by
  unfold Machine.ppuStatusBits; split
  · exact h.setExt _
  · exact h

theorem Sound.ramStore (h : Sound s) (a : Addr) (v : Byte) : Sound (ramStore s a v) := h.setRam (ramStore_wf s a v h.ram)

theorem Sound.ppuTargetRead (h : Sound s) (a : Addr) : Sound (ppuTargetRead s a).2 := by
  unfold Machine.ppuTargetRead; split
  · exact h.ppuStatusBits.setVblank false
  · exact h.ppuRegRead _

theorem Sound.ppuTargetWrite (h : Sound s) (a : Addr) (v : Byte) : Sound (ppuTargetWrite s a v) := by
  unfold Machine.ppuTargetWrite; split
  · exact (h.setCtrl v).ppuRegWrite _ v
  · split
    · exact (h.setMask v).ppuRegWrite _ v
    · exact h.ppuRegWrite _ v

theorem Sound.apuTargetWrite (h : Sound s) (a : Addr) (v : Byte) : Sound (apuTargetWrite s a v) := by
  unfold Machine.apuTargetWrite; split
  · exact (h.apuIoWrite a v).setDma _
  · exact h.apuIoWrite a v

theorem Sound.finishRead {r : Option Byte × State} (h : Sound r.2) : Sound (finishRead r).2 := by
  unfold Machine.finishRead; split
  · exact h.setOpenBus _
  · exact h

/-- A write anywhere on the bus (R147). -/
theorem Sound.memWrite (h : Sound s) (a : Addr) (v : Byte) : Sound (memWrite s a v) :=
  h.of_action (memWrite_keeps s a v) (by simpa using h.status) (by simpa using h.op)

/-! ## One dot (R103) -/

theorem edgeNext_lowRun_le (lowMin : Nat) (e : Edge) (a12 active : Bool) : (edgeNext lowMin e a12 active).lowRun ≤ lowMin := by
  cases a12
  · exact Nat.min_le_right _ _
  · exact Nat.zero_le _

theorem Sound.clearGate (h : Sound s) (d : Nat) : Sound (clearGate s d) := by
  unfold Machine.clearGate; split
  · exact h.setEdge h.lowRun
  · exact h

theorem Sound.observe (h : Sound s) (p : PAddr) (l : Nat) : Sound (observe s p l) := by
  have he := h.setEdge (edgeNext_lowRun_le s.params.a12LowMin s.edge (p.getLsbD 12) (renderingActive s l))
  unfold Machine.observe
  simp only []
  split
  · exact he.setMapper _
  · exact he

theorem Sound.dotDecode (h : Sound s) (l d : Nat) : Sound (dotDecode s l d) := (h.clearGate d).observe _ l

theorem Sound.vblankUpdate (h : Sound s) (l d : Nat) : Sound (vblankUpdate s l d) := by
  unfold Machine.vblankUpdate; split
  · exact h.setVblank true
  · split
    · exact h.setVblank false
    · exact h

theorem Sound.renderDot (h : Sound s) (l d : Nat) : Sound (renderDot s l d) := by
  unfold Machine.renderDot; split
  · exact { h with fb := writePixels_wf _ _ h.fb }
  · exact h

theorem Sound.nmiSample (h : Sound s) : Sound (nmiSample s) := h.setArb _

theorem Sound.frameEndUpdate (h : Sound s) (l d : Nat) : Sound (frameEndUpdate s l d) := by
  unfold Machine.frameEndUpdate; split
  · exact h.endFrame
  · exact h

/-- The next position is in the frame again: it wraps after the last dot of the last line, or an odd frame's last but one (R104). -/
theorem Sound.advance (h : Sound s) : Sound (advance s) := by
  obtain ⟨hl, hd⟩ := (legalPosition_iff s).1 h.position
  have hwrap : (0 : Nat) < 262 ∧ (0 : Nat) < 341 := by decide
  unfold Machine.advance
  split
  · exact h.setSched hwrap
  · split
    · split
      · exact h.setSched hwrap
      case isFalse hlast =>
        have hl' : s.sched.line ≠ 261 := hlast
        exact h.setSched ⟨by simp only []; omega, hwrap.2⟩
    case isFalse hlast =>
      have hd' : s.sched.dot ≠ 340 := hlast
      exact h.setSched ⟨hl, by simp only []; omega⟩

theorem Sound.wholeDot (h : Sound s) : Sound (wholeDot s) :=
  ((((h.dotDecode _ _).vblankUpdate _ _).renderDot _ _).nmiSample.frameEndUpdate _ _).advance

theorem Sound.ppuDot (h : Sound s) : Sound (ppuDot s) := by
  rcases ppuDot_cases s with ⟨-, e⟩ | ⟨-, -, e⟩ | ⟨-, -, e⟩
  · rw [e]; exact h
  · rw [e]; exact (h.dotDecode _ _).raiseFault _
  · rw [e]; exact h.wholeDot

theorem Sound.threeDots (h : Sound s) : Sound (threeDots s) := h.ppuDot.ppuDot.ppuDot

end

/-! ## The status byte: bits 5 and 4 are never stored (R35) -/

theorem statusStored_iff (p : Byte) : statusStored p = true ↔ p[4] = false ∧ p[5] = false := by
  rw [statusStored, beq_iff_eq]
  constructor
  · intro h
    exact ⟨by simpa using congrArg (fun x => x[4]) h, by simpa using congrArg (fun x => x[5]) h⟩
  · rintro ⟨h4, h5⟩
    apply byte_ext
    simp [h4, h5]

theorem statusStored_setI {p : Byte} (h : statusStored p = true) : statusStored (setI p) = true := by
  simpa [statusStored_iff, setI] using h

theorem statusStored_clearI {p : Byte} (h : statusStored p = true) : statusStored (clearI p) = true := by
  simpa [statusStored_iff, clearI] using h

theorem statusStored_loadFlags {p : Byte} (imm : Byte) (h : statusStored p = true) : statusStored (loadFlags p imm) = true := by
  rw [statusStored_iff] at h ⊢
  by_cases hz : imm = 0#8 <;> simp [loadFlags, hz, h]

theorem statusStored_pulledStatus (v : Byte) : statusStored (pulledStatus v) = true := by
  rw [statusStored, beq_iff_eq]
  exact pulledStatus_stored v

theorem statusStored_engineStatus (old new : Byte) : statusStored (engineStatus old new) = true := by
  simp [statusStored_iff, engineStatus]

/-! The cycles of the operations: the stack and the fetches leave the status byte alone. -/

section
variable {s : State}

@[simp] theorem push_cpu_p (s : State) (v : Byte) : (push s v).cpu.p = s.cpu.p := by simp [push_eq]
@[simp] theorem pull_cpu_p (s : State) : (pull s).2.cpu.p = s.cpu.p := by simp [pull_eq]
@[simp] theorem dummyStackRead_cpu_p (s : State) : (dummyStackRead s).cpu.p = s.cpu.p := by simp [dummyStackRead]

theorem enterCycle_status (vector : Addr) (brk : Bool) (k : Nat) (lo : Byte) (h : statusStored s.cpu.p = true) :
    statusStored (enterCycle vector brk k lo s).2.cpu.p = true := by
  unfold enterCycle
  split
  case h_3 => exact statusStored_setI (by simpa using h)
  all_goals simpa using h

theorem serviceCycle_status (vector : Addr) (k : Nat) (lo : Byte) (h : statusStored s.cpu.p = true) :
    statusStored (serviceCycle vector k lo s).2.cpu.p = true := by
  unfold serviceCycle
  split
  case h_3 => exact enterCycle_status _ _ _ _ h
  all_goals simpa using h

theorem returnCycle_status (k : Nat) (lo : Byte) (h : statusStored s.cpu.p = true) :
    statusStored (returnCycle k lo s).2.cpu.p = true := by
  unfold returnCycle
  split
  case h_1 => exact statusStored_pulledStatus _
  all_goals simpa using h

theorem insnCycle_status (kind : OpKind) (k : Nat) (operands : List Byte) (h : statusStored s.cpu.p = true) :
    statusStored (insnCycle kind k operands s).2.cpu.p = true := by
  cases kind with
  | brk =>
    simp only [insnCycle]
    split
    · simpa using h
    · exact enterCycle_status _ _ _ _ h
  | php => simp only [insnCycle, phpEffect]; split <;> simpa using h
  | plp =>
    simp only [insnCycle, plpEffect]
    split
    · simpa using h
    · split
      · simpa using h
      · exact statusStored_pulledStatus _
  | rti =>
    simp only [insnCycle]
    split
    · simpa using h
    · split
      · simpa using h
      · exact returnCycle_status _ _ h
  | cli => exact statusStored_clearI (by simpa using h)
  | sei => exact statusStored_setI (by simpa using h)
  | ldaImm => exact statusStored_loadFlags _ (by simpa using h)
  | staAbs =>
    simp only [insnCycle]
    split
    · simpa using h
    · split <;> simpa using h
  | nop => simpa [insnCycle] using h
  | jmpAbs => simp only [insnCycle]; split <;> simpa using h

theorem dmaCycle_status (page : Byte) (k n : Nat) (b : Byte) (h : statusStored s.cpu.p = true) :
    statusStored (dmaCycle page k n b s).2.cpu.p = true := by
  unfold dmaCycle
  split
  · exact h
  · split <;> simpa using h

theorem fetchCycle_status (h : statusStored s.cpu.p = true) : statusStored (fetchCycle s).cpu.p = true := by
  unfold fetchCycle
  simp only []
  split
  · simpa using h
  · split <;> simpa [refuseOpcode, raiseFault] using h

/-- One cycle of any operation keeps the status byte's form (R160, R35). -/
theorem performCycle_status (h : statusStored s.cpu.p = true) : statusStored (performCycle s).cpu.p = true := by
  unfold performCycle
  split
  case h_1 => exact h
  case h_2 => exact fetchCycle_status h
  case h_3 =>
    split
    · exact insnCycle_status _ _ _ h
    · exact h
  case h_4 => exact statusStored_engineStatus _ _
  case h_5 => exact serviceCycle_status _ _ _ h
  case h_6 => exact serviceCycle_status _ _ _ h
  case h_7 => exact dmaCycle_status _ _ _ _ h

/-! ## The operation: its cycle number stays within it (R37, R160) -/

theorem two_le_cycles (kind : OpKind) : 2 ≤ kind.cycles := by cases kind <;> decide

@[simp] theorem opLegal_external (opcode : Byte) (k : Nat) : opLegal (.external opcode k) = true ↔ 2 ≤ k := by simp [opLegal]

@[simp] theorem opLegal_irqSeq (k : Nat) (lo : Byte) : opLegal (.irqSeq k lo) = true ↔ 1 ≤ k ∧ k ≤ 7 := by
  simp only [opLegal, decide_eq_true_eq]
  exact Iff.rfl

@[simp] theorem opLegal_nmiSeq (k : Nat) (lo : Byte) : opLegal (.nmiSeq k lo) = true ↔ 1 ≤ k ∧ k ≤ 7 := by
  simp only [opLegal, decide_eq_true_eq]
  exact Iff.rfl

@[simp] theorem opLegal_dma (page : Byte) (k n : Nat) (b : Byte) :
    opLegal (.dma page k n b) = true ↔ (1 ≤ k ∧ k ≤ n) ∧ (n = 513 ∨ n = 514) := by
  simp [opLegal]

theorem opLegal_insn {opcode : Byte} {kind : OpKind} (hk : opKind opcode = some kind) (operands : List Byte) (k n : Nat) :
    opLegal (.insn opcode operands k n) = true ↔ (2 ≤ k ∧ k ≤ n) ∧ n = kind.cycles := by
  simp [opLegal, hk]

/-- After a cycle, an operation is complete or has a next cycle (R160). -/
theorem opLegal_completed {done : Prop} [Decidable done] {next : Op} (h : ¬done → opLegal next = true) :
    opLegal (if done then .none else next) = true := by
  split
  · rfl
  · exact h ‹_›

theorem fetchCycle_op (hop : s.cpu.op = .fetch) : opLegal (fetchCycle s).cpu.op = true := by
  unfold fetchCycle
  simp only []
  split
  case h_1 kind hk => exact (opLegal_insn hk _ _ _).2 ⟨⟨Nat.le_refl 2, two_le_cycles kind⟩, rfl⟩
  case h_2 =>
    split
    · simp
    · simp [refuseOpcode, raiseFault, hop, opLegal]

/-- One cycle of a legal operation leaves a legal operation: its next cycle, or none where it is complete (R160). -/
theorem performCycle_op (h : opLegal s.cpu.op = true) : opLegal (performCycle s).cpu.op = true := by
  unfold performCycle
  split
  case h_1 => exact h
  case h_2 hop => exact fetchCycle_op hop
  case h_3 opcode operands k n hop =>
    rw [hop] at h
    split
    case h_1 kind hk =>
      obtain ⟨⟨h2, hkn⟩, hn⟩ := (opLegal_insn hk _ _ _).1 h
      exact opLegal_completed fun hk' => (opLegal_insn hk _ _ _).2 ⟨by omega, hn⟩
    case h_2 => rfl
  case h_4 opcode k hop =>
    rw [hop, opLegal_external] at h
    exact opLegal_completed fun _ => (opLegal_external _ _).2 (by omega)
  case h_5 k lo hop =>
    rw [hop, opLegal_irqSeq] at h
    exact opLegal_completed fun (hk : ¬7 ≤ k) => (opLegal_irqSeq _ _).2 (by omega)
  case h_6 k lo hop =>
    rw [hop, opLegal_nmiSeq] at h
    exact opLegal_completed fun (hk : ¬7 ≤ k) => (opLegal_nmiSeq _ _).2 (by omega)
  case h_7 page k n b hop =>
    rw [hop, opLegal_dma] at h
    exact opLegal_completed fun hk => (opLegal_dma _ _ _ _).2 (by omega)

/-- The arbiter's choice is legal: a stall starts at cycle 1 of 513 or 514, a service at cycle 1 (R162, R172). -/
theorem boundary_op (h : opLegal s.cpu.op = true) : opLegal (boundary s).cpu.op = true := by
  unfold boundary
  split
  case isFalse => exact h
  case isTrue =>
    unfold arbitrate
    split
    case h_1 page _ => exact (opLegal_dma _ _ _ _).2 (by omega)
    case h_2 =>
      split
      · simp
      · split
        · simp
        · rfl

end

/-! ## CPU cycles (R102) -/

section
variable {s : State}

theorem Sound.boundary (h : Sound s) : Sound (boundary s) := by
  obtain ⟨hh, hs, he, -, -, -, -, hr, hp, hq, -, -, hst, -⟩ := boundary_keeps s
  exact h.transport hh hs he hq hp (by rw [hr]; exact h.ram) (by rw [hst]; exact h.status) (boundary_op h.op)

theorem Sound.performCycle (h : Sound s) : Sound (performCycle s) := by
  rcases performCycle_cases s with k | ⟨-, -, e⟩
  · exact h.of_action k (performCycle_status h.status) (performCycle_op h.op)
  · have hf : Sound (fetchByte s).2 := h.of_action (fetchByte_keeps s) (by simpa using h.status) (by simpa using h.op)
    rw [e]
    exact hf.raiseFault _

theorem Sound.unlessHalted (h : Sound s) {f : State → State} (hf : ∀ t, Sound t → Sound (f t)) : Sound (unlessHalted f s) := by
  unfold Machine.unlessHalted
  split
  · exact h
  · exact hf s h

theorem Sound.cpuCycle (h : Sound s) : Sound (cpuCycle s) :=
  h.threeDots.unlessHalted fun _ ht => ht.boundary.performCycle.unlessHalted fun _ hu => hu.countCycle

theorem Sound.frameOperation (h : Sound s) : Sound (frameOperation s) :=
  runWhile_keeps (fun s t => Sound s → Sound t) (fun _ => id) (fun _ _ _ hst htu hs => htu (hst hs))
    (fun _ hs => hs.cpuCycle) _ _ s h

theorem Sound.frameLoop (h : Sound s) {n : Nat} {t : State} (hl : frameLoop n s = some t) : Sound t :=
  frameLoop_keeps (fun s t => Sound s → Sound t) (fun _ _ _ hst htu hs => htu (hst hs)) (fun _ hs => hs.cpuCycle) n s t hl h

/-! ## The service sequences (R165, R168) -/

/-- A timed cycle whose action keeps what actions keep and the status byte's form, and whose next operation is legal. -/
theorem Sound.timed (h : Sound s) {next : Op} {act : State → State} (hn : opLegal next = true)
    (hk : ∀ t, actionKeeps t (act t)) (hst : ∀ t : State, statusStored t.cpu.p = true → statusStored (act t).cpu.p = true) :
    Sound (timed next act s) :=
  h.threeDots.unlessHalted fun t ht =>
    (ht.of_action (t := Machine.setOp (act t) next) (actionKeeps_trans (hk t) (cpu_keeps _ _)) (hst t ht.status) hn).countCycle

theorem Sound.timed_enterCycle (h : Sound s) (vector : Addr) (brk : Bool) (k : Nat) (lo : Byte) {next : Op}
    (hn : opLegal next = true) : Sound (Machine.timed next (fun t => (enterCycle vector brk k lo t).2) s) :=
  h.timed hn (fun t => enterCycle_keeps vector brk k lo t) (fun _ ht => enterCycle_status vector brk k lo ht)

theorem Sound.enterInterrupt (h : Sound s) (vector : Addr) (brk : Bool) {op : Nat → Byte → Op}
    (hop : ∀ k lo, 2 ≤ k → k ≤ 7 → opLegal (op k lo) = true) : Sound (enterInterrupt vector brk op s) := by
  have h3 := h.timed_enterCycle vector brk 3 0 (hop 4 0 (by omega) (by omega))
  have h4 := h3.timed_enterCycle vector brk 4 0 (hop 5 0 (by omega) (by omega))
  have h5 := h4.timed_enterCycle vector brk 5 0 (hop 6 0 (by omega) (by omega))
  exact (h5.timed_enterCycle vector brk 6 0 (hop 7 _ (by omega) (by omega))).timed_enterCycle vector brk 7 _ rfl

theorem Sound.serviceInterrupt (h : Sound s) (vector : Addr) {op : Nat → Byte → Op}
    (hop : ∀ k lo, 2 ≤ k → k ≤ 7 → opLegal (op k lo) = true) : Sound (serviceInterrupt vector op s) := by
  have hd : ∀ t : State, statusStored t.cpu.p = true → statusStored (dummyRead t).cpu.p = true := fun t ht => by simpa using ht
  have h1 := h.timed (hop 2 0 (by omega) (by omega)) dummyRead_keeps hd
  have h2 := h1.timed (hop 3 0 (by omega) (by omega)) dummyRead_keeps hd
  exact h2.enterInterrupt vector false hop

/-! ## The commands a step can take inside a STEP (log 2) -/

/-- If an outcome is a next state, that state is sound. -/
def soundNext (r : Result) : Prop := ∀ t, r = .next t → Sound t

@[simp] theorem soundNext_next (t : State) : soundNext (.next t) ↔ Sound t :=
  ⟨fun h => h t rfl, fun h _ e => by cases e; exact h⟩

theorem soundNext_busWriteTo (h : Sound s) (v : Byte) {target : State → State} (ht : ∀ t, Sound t → Sound (target t)) :
    soundNext (busWriteTo target s v) := (soundNext_next _).2 (ht _ (h.setOpenBus v))

theorem soundNext_busReadFrom {target : State → Option Byte × State} (h : Sound (target s).2) :
    soundNext (busReadFrom target s) := (soundNext_next _).2 h.finishRead

theorem soundNext_exec_busInstr (h : Sound s) (r : BusRow) (a : Addr) (v : Byte) : soundNext (exec (busInstr r a v) s) := by
  cases r with
  | irqLatchW => exact soundNext_busWriteTo h v fun _ ht => ht.setMapper _
  | irqReloadW => exact soundNext_busWriteTo h v fun _ ht => ht.setMapper _
  | irqDisableAckW => exact soundNext_busWriteTo h v fun _ ht => ht.setMapper _
  | irqEnableW => exact soundNext_busWriteTo h v fun _ ht => ht.setMapper _
  | bankW => exact soundNext_busWriteTo (target := fun t => bankWrite t a v) h v fun _ ht => ht.bankWrite a v
  | cartPrgR => exact soundNext_busReadFrom (target := fun t => (some (prgRead t a), t)) h
  | ramR => exact soundNext_busReadFrom (target := fun t => (some (ramLoad t a), t)) h
  | ramW => exact soundNext_busWriteTo h v fun _ ht => ht.ramStore a v
  | ppuRegR => exact soundNext_busReadFrom (target := fun t => ppuTargetRead t a) (h.ppuTargetRead a)
  | ppuRegW => exact soundNext_busWriteTo h v fun _ ht => ht.ppuTargetWrite a v
  | apuIoR => exact soundNext_busReadFrom (target := fun t => apuIoRead t a) (h.apuIoRead a)
  | apuIoW => exact soundNext_busWriteTo h v fun _ ht => ht.apuTargetWrite a v
  | cartLowR => exact soundNext_busReadFrom (target := fun t => cartLowRead t a) (h.cartLowRead a)
  | cartLowW => exact soundNext_busWriteTo (target := fun t => cartLowWrite t a v) h v fun _ ht => ht.cartLowWrite a v

/-- Every class of a PPU address has the one meaning (R200). -/
theorem exec_ppuaInstr (r : PpuaRow) (p : PAddr) (s : State) : exec (ppuaInstr r p) s = .next (seenAddress p s) := by
  cases r <;> rfl

theorem soundNext_exec_eventInstr (h : Sound s) (e : Event) : soundNext (exec (eventInstr e) s) := by
  cases e with
  | cpuCycle => exact (soundNext_next _).2 h.cpuCycle
  | ppuDot => exact (soundNext_next _).2 h.ppuDot
  | tick => exact (soundNext_next _).2 (h.setMapper _)
  | boundary => exact (soundNext_next _).2 h.boundary
  | irqService => exact (soundNext_next _).2 (h.serviceInterrupt _ fun k lo h2 h7 => (opLegal_irqSeq k lo).2 (by omega))
  | nmiService => exact (soundNext_next _).2 (h.serviceInterrupt _ fun k lo h2 h7 => (opLegal_nmiSeq k lo).2 (by omega))
  | nmiEdge => exact (soundNext_next _).2 h.nmiSample
  | frameEnd => exact (soundNext_next _).2 h.endFrame

theorem soundNext_takeStimulus (h : Sound s) {x : Stimulus} (hx : internalStimulus x = true) :
    soundNext (takeStimulus x s) := by
  cases x with
  | bus head data =>
    simp only [takeStimulus, decodeStimulus]
    cases decodeBusRow head with
    | some r => exact soundNext_exec_busInstr h r _ _
    | none => intro t e; cases e
  | ppua w =>
    have hseen : ∀ p, Sound (seenAddress p s) := fun p => h.observe p _
    simp only [takeStimulus, decodeStimulus]
    by_cases hw : w.toNat < 16384
    · simp only [if_pos hw]
      cases decodePpuaRow (w.extractLsb' 0 14) with
      | some r =>
        show soundNext (exec (ppuaInstr r _) s)
        rw [exec_ppuaInstr]
        exact (soundNext_next _).2 (hseen _)
      | none => intro t e; cases e
    · simp only [if_neg hw]
      exact (soundNext_next _).2 ((hseen _).raiseFault _)
  | event e => exact soundNext_exec_eventInstr h e
  | host c => simp [internalStimulus] at hx

/-! ## The end of a STEP and its settling (R101, R232) -/

theorem finishStep_inStep (s : State) : (finishStep s).host.inStep = false := by
  unfold finishStep
  simp only []
  split <;> rfl

theorem Sound.finishStep (h : Sound s) : Sound (finishStep s) := by
  have hend : Sound (setHost s { s.host with inStep := false }) := { h with begun := fun hi => by simp at hi }
  unfold Machine.finishStep
  simp only []
  split
  · exact hend
  · exact { hend with frame := hend.fb }

/-- Settled, a sound state is legal (R101, R250). -/
theorem Sound.settle_legal (h : Sound s) : legalState (settle s) = true := by
  rcases settle_cases s with ⟨e, hgo⟩ | ⟨e, -⟩
  · rw [e]
    refine (legalState_iff s).2 ⟨h, fun hi => ?_⟩
    simp only [hi, Bool.true_and, Bool.or_eq_false_iff] at hgo
    exact ⟨hgo.2, hgo.1⟩
  · rw [e]
    exact h.finishStep.legal_of_idle (finishStep_inStep s)

theorem settled_legal {r : Result} (h : soundNext r) {t : State} (ht : settled r = .next t) : legalState t = true := by
  cases r with
  | next u => cases ht; exact (h u rfl).settle_legal
  | fault f => cases ht
  | refused f => cases ht

/-! ## The commands outside a STEP (R231 to R236) -/

/-- The gate of a command lets it act in Running alone (R230, R237). -/
theorem commandGate_none {c : CommandName} (h : commandGate c s = none) :
    s.host.closed = false ∧ s.host.resetDone = true ∧ s.host.fault = none := by
  unfold commandGate at h
  split at h
  · cases h
  case isFalse hc =>
    split at h
    · cases h
    case isFalse hr =>
      split at h
      case h_1 => cases h
      case h_2 hf => exact ⟨by simpa using hc, by simpa using hr, hf⟩

/-- A STEP begun in Running: its frame is not done (R101, R232). -/
theorem Sound.startStep (h : Sound s) (hg : commandGate .step s = none) (input : Nat) : Sound (startStep input s) :=
  have hrunning : s.host.resetDone = true ∧ s.host.closed = false := by
    obtain ⟨hc, hr, -⟩ := commandGate_none hg
    exact ⟨hr, hc⟩
  { h with begun := fun _ => hrunning }

theorem Sound.startStep_legal (h : Sound s) (hg : commandGate .step s = none) (input : Nat) :
    legalState (Machine.startStep input s) = true :=
  have hf : halted (Machine.startStep input s) = false := by
    obtain ⟨-, -, hf⟩ := commandGate_none hg
    simp [halted, Machine.startStep, setHost, hf]
  (legalState_iff _).2 ⟨h.startStep hg input, fun _ => ⟨hf, rfl⟩⟩

theorem resetFields_host (s : State) :
    (resetFields s).host = { State.reset.host with closed := s.host.closed, inbox := s.host.inbox, reply := s.host.reply } := rfl

/-- RESET goes to the reset position, which is in the frame, and keeps the image and the parameters (R270, R272, R41). -/
theorem Sound.resetFields (h : Sound s) : Sound (resetFields s) where
  position := by
    have hv := h.params
    simp only [Settings.valid, Bool.and_eq_true, decide_eq_true_eq] at hv
    obtain ⟨⟨⟨⟨hl, hd⟩, -⟩, -⟩, -⟩ := hv
    exact (legalPosition_iff _).2 ⟨hl, hd⟩
  lowRun := Nat.zero_le _
  status := (by decide : statusStored 0x04 = true)
  op := rfl
  ram := rfl
  prg := h.prg
  fb := rfl
  frame := rfl
  begun := fun hi => by simp [resetFields_host, State.reset] at hi
  params := h.params

/-- A host command executed whole outside a STEP leaves a sound state, with no STEP in progress (R230 to R237). -/
theorem Sound.exec_hostInstr (h : Sound s) (hi : s.host.inStep = false) (c : HostCommand) {t : State}
    (ht : exec (hostInstr c) s = .next t) : Sound t ∧ t.host.inStep = false := by
  cases c with
  | reset =>
    change execHostReset s = .next t at ht
    unfold execHostReset at ht
    split at ht <;> cases ht
    · exact ⟨h.answer _, hi⟩
    · exact ⟨h.resetFields.answer _, rfl⟩
  | step input =>
    change execHostStep input s = .next t at ht
    unfold execHostStep at ht
    split at ht
    case h_1 => cases ht; exact ⟨h.answer _, hi⟩
    case h_2 hg =>
      split at ht
      case h_1 u hl => cases ht; exact ⟨((h.startStep hg input).frameLoop hl).finishStep, finishStep_inStep u⟩
      case h_2 => cases ht
  | busWrite addr value =>
    change execHostBusWrite addr value s = .next t at ht
    unfold execHostBusWrite at ht
    split at ht
    case h_1 => cases ht; exact ⟨h.answer _, hi⟩
    case h_2 =>
      split at ht
      · cases ht; exact ⟨h.raiseFault _, hi⟩
      · split at ht <;> cases ht
        · exact ⟨h.raiseFault _, hi⟩
        · exact ⟨(h.memWrite _ _).answer _, by simpa [Machine.answer, setHost] using hi⟩
  | readFrame =>
    change execHostReadFrame s = .next t at ht
    unfold execHostReadFrame at ht
    split at ht <;> cases ht <;> exact ⟨h.answer _, hi⟩
  | close =>
    cases ht
    have hc : Sound (setHost s { s.host with closed := true }) := { h with begun := fun hs => by simp [hi] at hs }
    exact ⟨hc.answer _, hi⟩

/-- A stimulus that comes from the host, a command or TICK, outside a STEP (R67, R93). -/
theorem Sound.takeStimulus_legal (h : Sound s) (hi : s.host.inStep = false) {x : Stimulus} (hx : internalStimulus x = false)
    {t : State} (ht : takeStimulus x s = .next t) : legalState t = true := by
  cases x with
  | bus head data => simp [internalStimulus] at hx
  | ppua w => simp [internalStimulus] at hx
  | event e =>
    cases e with
    | tick => cases ht; exact (h.setMapper _).legal_of_idle hi
    | _ => simp [internalStimulus] at hx
  | host c =>
    obtain ⟨hs, hn⟩ := h.exec_hostInstr hi c ht
    exact hs.legal_of_idle hn

/-! ## One step -/

/-- A step from a legal state that gives a next state gives a legal one. -/
theorem step_legal {t : State} (hs : legalState s = true) (ht : step s = .next t) : legalState t = true := by
  have h : Sound s := ((legalState_iff s).1 hs).1
  rcases step_cases s with
    ⟨hi, ⟨-, e⟩ | ⟨x, rest, -, ⟨-, e⟩ | ⟨hx, ⟨input, -, hg, e⟩ | e⟩⟩⟩ | ⟨-, ⟨x, rest, -, hx, e⟩ | e⟩
  · rw [e] at ht; cases ht
    exact hs
  · rw [e] at ht; cases ht
    exact (h.setInbox rest).legal_of_idle hi
  · rw [e] at ht; cases ht
    exact (h.setInbox rest).startStep_legal hg input
  · exact (h.setInbox rest).takeStimulus_legal hi hx (e ▸ ht)
  · exact settled_legal (soundNext_takeStimulus (h.setInbox rest) hx) (e ▸ ht)
  · rw [e] at ht; cases ht
    exact h.frameOperation.settle_legal

end

/-- Settles O58: a legal state is sound, every operation keeps a state sound, and a step either leaves no STEP in progress, begins one
in Running, or settles it. -/
theorem stepKeepsLegalStates : Obligations.StepKeepsLegalStates := by
  unfold Obligations.StepKeepsLegalStates
  exact fun _ _ hs ht => step_legal hs ht

end Sys2Proof.Machine
end

section
/-! SUPPORT. Everything one dot leaves, field by field: a dot that an address too wide stops at the decoder, and a whole dot (R103, R94,
R250; O28). The edge detector and the mapper are the same in both. -/

namespace Sys2Proof.Machine

variable {s : State}

/-! ## The pixels (R103, R40) -/

theorem renderDot_host (s : State) (l d : Nat) :
    (renderDot s l d).host = { s.host with
      fb := if s.ext.fullPpu then writePixels s.host.fb (Config.ppuRenderDot s.ext.ppuSt l d).1 else s.host.fb } := by
  unfold renderDot
  split <;> rfl

theorem renderDot_ext (s : State) (l d : Nat) :
    (renderDot s l d).ext = if s.ext.fullPpu then { s.ext with ppuSt := (Config.ppuRenderDot s.ext.ppuSt l d).2 } else s.ext := by
  unfold renderDot
  split <;> rfl

theorem wholeDot_host (s : State) : (wholeDot s).host = (renderDot s s.sched.line s.sched.dot).host := by
  simp [wholeDot, renderDot_host]

theorem wholeDot_ext (s : State) : (wholeDot s).ext = (renderDot s s.sched.line s.sched.dot).ext := by
  simp [wholeDot, renderDot_ext]

/-! ## The decoder's part, in the words of R206 to R208 -/

/-- Dot 0 clears the gate, any other dot leaves it. -/
theorem clearGate_edge_and (s : State) (d : Nat) :
    (clearGate s d).edge = { s.edge with firedLine := s.edge.firedLine && decide (d ≠ 0) } := by
  rw [clearGate_edge]
  by_cases hd : d = 0 <;> simp [hd]

/-! ## The rest of the dot, which an address too wide leaves out (R94, R103, R250) -/

/-- With no fault standing, a dot stops at the decoder or is whole. -/
theorem ppuDot_running (h : halted s = false) :
    ppuDot s = if tooWide (currentWord s) then raisePpuAddrWidth (dotDecode s s.sched.line s.sched.dot) (currentWord s)
      else wholeDot s := by
  rw [ppuDot, if_neg (by simp [h])]

theorem ppuDot_ppu (h : halted s = false) : (ppuDot s).ppu = { s.ppu with
    vblank := if tooWide (currentWord s) then s.ppu.vblank else vblankAfterDot s.sched s.ppu.vblank } := by
  rw [ppuDot_running h]
  split
  · simp [raisePpuAddrWidth, raiseFault]
  · exact wholeDot_ppu s

theorem ppuDot_arb (h : halted s = false) : (ppuDot s).arb = if tooWide (currentWord s) then s.arb else {
    nmiPrev := (ppuDot s).ppu.vblank && ctrlNmi s.ppu.ctrl
    nmiPending := s.arb.nmiPending || ((ppuDot s).ppu.vblank && ctrlNmi s.ppu.ctrl && !s.arb.nmiPrev) } := by
  rw [ppuDot_running h]
  split
  · simp [raisePpuAddrWidth, raiseFault]
  · exact wholeDot_arb s

theorem ppuDot_host (h : halted s = false) : (ppuDot s).host =
    if tooWide (currentWord s) then (raisePpuAddrWidth s (currentWord s)).host
    else (renderDot s s.sched.line s.sched.dot).host := by
  rw [ppuDot_running h]
  split
  · simp [raisePpuAddrWidth, raiseFault]
  · exact wholeDot_host s

theorem ppuDot_ext (h : halted s = false) : (ppuDot s).ext =
    if tooWide (currentWord s) then s.ext else (renderDot s s.sched.line s.sched.dot).ext := by
  rw [ppuDot_running h]
  split
  · simp [raisePpuAddrWidth, raiseFault]
  · exact wholeDot_ext s

/-- Settles O28: what a dot leaves, unit by unit. -/
theorem dotUpdatesVblankThenSamplesNmi : Obligations.DotUpdatesVblankThenSamplesNmi := by
  unfold Obligations.DotUpdatesVblankThenSamplesNmi
  intro s hf l d w wide gate active raised
  have hh : halted s = false := by simp [halted, hf]
  have hgate : (clearGate s s.sched.dot).edge = gate := clearGate_edge_and s d
  have hact : renderingActive s s.sched.line = active := renderingActive_eq s l
  have hwide : tooWide (currentWord s) = wide := rfl
  refine ⟨ppuDot s, rfl, ?edge, ?mapper, ppuDot_ppu hh, ppuDot_arb hh, ?host, ?ext, ppuDot_cpu s, ppuDot_bus s, ppuDot_ram s,
    ppuDot_prg s, ppuDot_params s, fun hu => currentWord_narrow s ((unstopped_iff s).1 hu).2⟩
  case edge => rw [ppuDot_edge_eq hh, hgate, hact]; rfl
  case mapper => rw [ppuDot_mapper_eq hh, hgate, hact]; rfl
  case host =>
    rw [ppuDot_host hh, renderDot_host, hwide]
    cases wide
    · simp [hf, l, d]
    · simp [raisePpuAddrWidth, raiseFault, reasonReply, raised, l, d, w, currentWord]
  case ext =>
    rw [ppuDot_ext hh, renderDot_ext, hwide]
    cases wide <;> simp [l, d]

end Sys2Proof.Machine
end

section
/-! SUPPORT. The instruction boundary: what the arbiter chooses, one equation per choice (R161, R162, R254; O32), and an IRQ taken in the
cycle whose dots assert it (R102, R108; O31). -/

namespace Sys2Proof.Machine

variable {s : State}

/-! ## The arbiter's choices, in their order (R162, R254) -/

/-- A DMA request comes before everything else. -/
theorem arbitrate_dma {page : Byte} (hd : s.cpu.dmaPending = some page) :
    arbitrate s = setOp (setDma s none) (.dma page 1 (513 + s.sched.cpuCycles % 2) 0) := by
  simp [arbitrate, hd]

theorem arbitrate_nmi (hd : s.cpu.dmaPending = none) (hp : s.params.nmiPresent = true) (hn : s.arb.nmiPending = true) :
    arbitrate s = setOp (setArb s { s.arb with nmiPending := false }) (.nmiSeq 1 0) := by
  simp [arbitrate, hd, hp, hn]

/-- With no DMA and no NMI to take, the IRQ line and `C.I` decide. -/
theorem arbitrate_quiet (hd : s.cpu.dmaPending = none) (hn : s.params.nmiPresent = false ∨ s.arb.nmiPending = false) :
    arbitrate s = setOp s (if cpuIrq s && !flagI s.cpu.p then .irqSeq 1 0 else .fetch) := by
  have hn' : (s.params.nmiPresent && s.arb.nmiPending) = false := Bool.and_eq_false_iff.2 hn
  simp only [arbitrate, hd, hn', Bool.false_eq_true, if_false]
  split <;> rfl

theorem arbitrate_irq (hd : s.cpu.dmaPending = none) (hn : s.params.nmiPresent = false ∨ s.arb.nmiPending = false)
    (hl : s.mapper.irqLine = true ∨ s.params.extIrq = true) (hI : s.cpu.p.getLsbD 2 = false) :
    arbitrate s = setOp s (.irqSeq 1 0) := by
  have hc : (cpuIrq s && !flagI s.cpu.p) = true := by simp only [cpuIrq, flagI, hI]; simpa using hl
  rw [arbitrate_quiet hd hn, if_pos hc]

theorem arbitrate_fetch (hd : s.cpu.dmaPending = none) (hn : s.params.nmiPresent = false ∨ s.arb.nmiPending = false)
    (hl : (s.mapper.irqLine = false ∧ s.params.extIrq = false) ∨ s.cpu.p.getLsbD 2 = true) :
    arbitrate s = setOp s .fetch := by
  have hc : (cpuIrq s && !flagI s.cpu.p) = false := by
    rcases hl with ⟨hm, he⟩ | hI
    · simp [cpuIrq, hm, he]
    · simp only [flagI, hI, Bool.not_true, Bool.and_false]
  rw [arbitrate_quiet hd hn, hc]; rfl

/-! ## The boundary (R161) -/

theorem boundary_of_none (ho : s.cpu.op = .none) : boundary s = arbitrate s := by simp [boundary, ho, opIsNone]

/-- Inside an operation there is no boundary. -/
theorem boundary_inside (ho : s.cpu.op ≠ .none) : boundary s = s := by
  have hb : opIsNone s.cpu.op = false := by
    cases hop : s.cpu.op with
    | none => exact absurd hop ho
    | _ => rfl
  simp [boundary, hb]

theorem exec_boundary (s : State) : exec .boundary s = .next (boundary s) := rfl

/-- Settles O32: one equation of the arbiter per clause. -/
theorem boundaryPriority : Obligations.BoundaryPriority := by
  unfold Obligations.BoundaryPriority
  intro s
  rw [exec_boundary]
  refine ⟨fun ho => by rw [boundary_inside ho], fun ho => ?_⟩
  rw [boundary_of_none ho]
  refine ⟨fun p hd => ?_, fun hd hp hn => ?_, fun hd hn hl hI => ?_, fun hd hn hl => ?_⟩
  · rw [arbitrate_dma hd]; rfl
  · rw [arbitrate_nmi hd hp hn]; rfl
  · rw [arbitrate_irq hd hn hl hI]; rfl
  · rw [arbitrate_fetch hd hn hl]; rfl

/-! ## An IRQ taken in the cycle whose dots assert it (R102, R108, R165) -/

/-- A CPU cycle that nothing stops and whose action is not refused: dots, action, count. -/
theorem cpuCycle_of_action (h : unstopped s = true) (ha : halted (cpuAction (threeDots s)) = false) :
    cpuCycle s = countCycle (cpuAction (threeDots s)) := by
  simp [cpuCycle, unlessHalted, halted_of_unstopped (unstopped_threeDots h), ha]

/-- The first cycle of the IRQ sequence is a dummy read at `C.PC`. -/
theorem performCycle_irqSeq_first {lo : Byte} (ho : s.cpu.op = .irqSeq 1 lo) :
    performCycle s = setOp (dummyRead s) (.irqSeq 2 lo) := by
  simp [performCycle, ho, serviceCycle, dummyRead, Config.irqSeqCycles]

/-- The CPU action at a boundary where the arbiter chooses the IRQ. -/
theorem cpuAction_irq (hb : boundary s = setOp s (.irqSeq 1 0)) :
    cpuAction s = setOp (dummyRead (setOp s (.irqSeq 1 0))) (.irqSeq 2 0) := by
  rw [cpuAction, hb, performCycle_irqSeq_first (setOp_cpu_op s _)]

/-- Settles O31: the dots leave the CPU at its boundary, the arbiter sees the line as they leave it, and the sequence's first cycle only
reads. -/
theorem irqIsTakenInTheTicksOwnCycle : Obligations.IrqIsTakenInTheTicksOwnCycle := by
  unfold Obligations.IrqIsTakenInTheTicksOwnCycle
  intro s h ho hd hn hl hI
  have hb : boundary (threeDots s) = setOp (threeDots s) (.irqSeq 1 0) := by
    rw [boundary_of_none (by simpa using ho)]
    exact arbitrate_irq (by simpa using hd) (by simpa [threeDots_eq] using hn) (by simpa [threeDots_eq] using hl)
      (by simpa using hI)
  have ha : halted (cpuAction (threeDots s)) = false := by
    simpa [cpuAction_irq hb, halted] using halted_of_unstopped (unstopped_threeDots h)
  refine ⟨_, 0, rfl, ?_⟩
  rw [cpuCycle_of_action h ha, cpuAction_irq hb]
  refine ⟨?_, ?_, ?_⟩
  · simp [setOp]
  · simp [threeDots_eq]
  · simp

end Sys2Proof.Machine
end

section
/-! SUPPORT. What no command but RESET and STEP changes: the parameters and the frame the host reads, one lemma per
operation up to `exec` (R40, R41, R234; O55, O59). -/

namespace Sys2Proof.Machine

/-- From s to t the parameters are the same, and so is the frame the host reads (R40, R41). -/
structure Stable (s t : State) : Prop where
  parameters : sameParameters s t
  frame : t.host.frame = s.host.frame

theorem Stable.refl (s : State) : Stable s s := ⟨by simp [sameParameters], rfl⟩

theorem Stable.trans {s t u : State} (h1 : Stable s t) (h2 : Stable t u) : Stable s u :=
  ⟨sameParameters_trans h1.parameters h2.parameters, h2.frame.trans h1.frame⟩

/-- A CPU action past its boundary leaves the host side and the parameters alone. -/
theorem Stable.of_action {s t : State} (k : actionKeeps s t) : Stable s t := by
  obtain ⟨hh, -, -, -, hp, -⟩ := k
  exact ⟨hp, by rw [hh]⟩

/-! ## Dots and CPU cycles (R102, R103) -/

theorem stable_ppuDot (s : State) : Stable s (ppuDot s) := ⟨by simp [sameParameters], ppuDot_host_frame s⟩

theorem stable_threeDots (s : State) : Stable s (threeDots s) := ⟨by simp [sameParameters], threeDots_host_frame s⟩

theorem stable_boundary (s : State) : Stable s (boundary s) := by
  obtain ⟨hh, -, -, -, -, -, he, -, hp, hq, -⟩ := boundary_keeps s
  exact ⟨by simp [sameParameters, he, hp, hq], by rw [hh]⟩

theorem stable_refuseOpcode (s : State) (op : Byte) : Stable s (refuseOpcode s op) :=
  ⟨by simp [sameParameters, refuseOpcode, raiseFault], rfl⟩

theorem stable_performCycle (s : State) : Stable s (performCycle s) := by
  rcases performCycle_cases s with k | ⟨-, -, e⟩
  · exact .of_action k
  · rw [e]
    exact (Stable.of_action (fetchByte_keeps s)).trans (stable_refuseOpcode _ _)

theorem stable_unlessHalted {f : State → State} (hf : ∀ t, Stable t (f t)) (s : State) : Stable s (unlessHalted f s) := by
  unfold unlessHalted
  split
  · exact .refl s
  · exact hf s

theorem stable_countCycle (s : State) : Stable s (countCycle s) := ⟨by simp [sameParameters], rfl⟩

theorem stable_cpuCycle (s : State) : Stable s (cpuCycle s) :=
  (stable_threeDots s).trans (stable_unlessHalted (fun t =>
    ((stable_boundary t).trans (stable_performCycle _)).trans (stable_unlessHalted stable_countCycle _)) _)

theorem stable_runWhile (goOn : State → Bool) (n : Nat) (s : State) : Stable s (runWhile goOn n s) :=
  runWhile_keeps Stable .refl (fun _ _ _ => .trans) stable_cpuCycle goOn n s

/-! ## Timed sequences (R165, R168, R174 to R184) -/

/-- A timed cycle whose action keeps what actions keep. -/
theorem Stable.timed {s t : State} (h : Stable s t) {act : State → State} (ha : ∀ u, actionKeeps u (act u)) (next : Op) :
    Stable s (timed next act t) :=
  h.trans ((stable_threeDots t).trans (stable_unlessHalted (fun u =>
    (Stable.of_action (ha u)).trans ((stable_countCycle _).trans (.of_action (cpu_keeps _ _)))) _))

theorem Stable.enterInterrupt {s t : State} (h : Stable s t) (vector : Addr) (brk : Bool) (op : Nat → Byte → Op) :
    Stable s (enterInterrupt vector brk op t) := by
  have hk := fun k lo => enterCycle_keeps vector brk k lo
  exact ((((h.timed (hk 3 0) _).timed (hk 4 0) _).timed (hk 5 0) _).timed (hk 6 0) _).timed (hk 7 _) _

theorem stable_serviceInterrupt (vector : Addr) (op : Nat → Byte → Op) (s : State) : Stable s (serviceInterrupt vector op s) :=
  (((Stable.refl s).timed dummyRead_keeps _).timed dummyRead_keeps _).enterInterrupt vector false op

theorem Stable.returnFromInterrupt {s t : State} (h : Stable s t) : Stable s (returnFromInterrupt t) := by
  have hk := fun k lo => returnCycle_keeps k lo
  exact ((h.timed (hk 4 0) _).timed (hk 5 0) _).timed (hk 6 _) _

theorem stable_fetchOpcode (op : Byte) (n : Nat) (s : State) : Stable s (fetchOpcode op n s) := (Stable.refl s).timed fetchByte_keeps _

theorem stable_handOver (op : Byte) (s : State) : Stable s (handOver op s) := by
  have hf : Stable s (fetchByte s).2 := .of_action (fetchByte_keeps s)
  have ho : ∀ o, Stable s (setOp (fetchByte s).2 o) := fun o => hf.trans (.of_action (cpu_keeps _ _))
  unfold handOver
  split
  · exact ((ho _).trans (stable_countCycle _)).trans (stable_runWhile _ _ _)
  · exact (ho _).trans (stable_refuseOpcode _ _)

/-! The last cycles of the instructions, as actions. -/

theorem seiEffect_keeps (s : State) : actionKeeps s (seiEffect s) := insnCycle_keeps .sei 2 [] s
theorem cliEffect_keeps (s : State) : actionKeeps s (cliEffect s) := insnCycle_keeps .cli 2 [] s
theorem phpEffect_keeps (s : State) : actionKeeps s (phpEffect s) := insnCycle_keeps .php 3 [] s
theorem plpEffect_keeps (s : State) : actionKeeps s (plpEffect s) := insnCycle_keeps .plp 4 [] s

theorem loadFetched_keeps (imm : Byte) (s : State) : actionKeeps s (loadImmediate (fetchByte s).2 imm) :=
  actionKeeps_trans (fetchByte_keeps s) (actionKeeps_trans (cpu_keeps _ _) (cpu_keeps _ _))

theorem jump_keeps (addr : Addr) (s : State) : actionKeeps s (setPc (memRead s s.cpu.pc).2 addr) :=
  actionKeeps_trans (memRead_keeps s _) (cpu_keeps _ _)

/-! ## The outcome of a command -/

/-- If an outcome is a next state, that state has the parameters and the frame of s. -/
def stableNext (s : State) (r : Result) : Prop := ∀ t, r = .next t → Stable s t

theorem stableNext_next {s t : State} (h : Stable s t) : stableNext s (.next t) := fun _ e => by cases e; exact h

theorem stable_answer (s : State) (r : Reply) : Stable s (answer s r) := ⟨by simp [sameParameters, answer], rfl⟩

theorem stable_raiseFault (s : State) (r : FaultReason) : Stable s (raiseFault s r) := ⟨by simp [sameParameters, raiseFault], rfl⟩

theorem stableNext_busWriteTo {target : State → State} (ht : ∀ t, Stable t (target t)) (s : State) (v : Byte) :
    stableNext s (busWriteTo target s v) :=
  have hv : Stable s (setOpenBus s v) := ⟨by simp [sameParameters], rfl⟩
  stableNext_next (hv.trans (ht _))

theorem stableNext_busReadFrom {target : State → Option Byte × State} {s : State} (ht : Stable s (target s).2) :
    stableNext s (busReadFrom target s) := by
  refine stableNext_next (ht.trans ?_)
  unfold finishRead
  split
  · exact ⟨by simp [sameParameters], rfl⟩
  · exact .refl _

/-! ## The bus rows (R88) -/

theorem stable_setMapper (s : State) (m : Mapper) : Stable s (setMapper s m) := ⟨by simp [sameParameters], rfl⟩

theorem stable_ppuTargetRead (s : State) (a : Addr) : Stable s (ppuTargetRead s a).2 := by
  unfold ppuTargetRead ppuStatusRead
  split <;> exact ⟨by simp [sameParameters], by simp⟩

theorem stable_ppuTargetWrite (s : State) (a : Addr) (v : Byte) : Stable s (ppuTargetWrite s a v) := by
  unfold ppuTargetWrite
  (repeat' split) <;> exact ⟨by simp [sameParameters], by simp⟩

theorem stable_apuTargetWrite (s : State) (a : Addr) (v : Byte) : Stable s (apuTargetWrite s a v) := by
  unfold apuTargetWrite
  split <;> exact ⟨by simp [sameParameters], by simp⟩

theorem stable_ramStore (s : State) (a : Addr) (v : Byte) : Stable s (ramStore s a v) := ⟨by simp [sameParameters, ramStore], rfl⟩

theorem stable_bankWrite (s : State) (a : Addr) (v : Byte) : Stable s (bankWrite s a v) := ⟨by simp [sameParameters], by simp⟩

theorem stable_cartLowWrite (s : State) (a : Addr) (v : Byte) : Stable s (cartLowWrite s a v) := ⟨by simp [sameParameters], by simp⟩

/-! ## Every command (R91, R230 to R237) -/

theorem stableNext_hostBusWrite (addr value : Nat) (s : State) : stableNext s (execHostBusWrite addr value s) := by
  unfold execHostBusWrite
  split
  · exact stableNext_next (stable_answer s _)
  · split
    · exact stableNext_next (stable_raiseFault s _)
    · split
      · exact stableNext_next (stable_raiseFault s _)
      · exact stableNext_next ((Stable.of_action (memWrite_keeps s _ _)).trans (stable_answer _ _))

theorem stableNext_hostReadFrame (s : State) : stableNext s (execHostReadFrame s) := by
  unfold execHostReadFrame
  split <;> exact stableNext_next (stable_answer s _)

theorem stableNext_hostClose (s : State) : stableNext s (execHostClose s) :=
  have hc : Stable s (setHost s { s.host with closed := true }) := ⟨by simp [sameParameters], rfl⟩
  stableNext_next (hc.trans (stable_answer _ _))

/-- Every command but STEP and RESET keeps the parameters and the frame the host reads. -/
theorem stableNext_exec {i : Instr} (hstep : ∀ input, i ≠ .hostStep input) (hreset : i ≠ .hostReset) (s : State) :
    stableNext s (exec i s) := by
  have seen : ∀ p, Stable s (seenAddress p s) := fun p => ⟨by simp [sameParameters, seenAddress], by simp [seenAddress]⟩
  have fetched : ∀ op n, Stable s (fetchOpcode op n s) := fun op n => stable_fetchOpcode op n s
  cases i with
  | irqLatchW a v => exact stableNext_busWriteTo (fun t => stable_setMapper t _) s v
  | irqReloadW a v => exact stableNext_busWriteTo (fun t => stable_setMapper t _) s v
  | irqDisableAckW a v => exact stableNext_busWriteTo (fun t => stable_setMapper t _) s v
  | irqEnableW a v => exact stableNext_busWriteTo (fun t => stable_setMapper t _) s v
  | bankW a v => exact stableNext_busWriteTo (fun t => stable_bankWrite t a v) s v
  | cartPrgR a => exact stableNext_busReadFrom (target := fun t => (some (prgRead t a), t)) (.refl s)
  | ramR a => exact stableNext_busReadFrom (target := fun t => (some (ramLoad t a), t)) (.refl s)
  | ramW a v => exact stableNext_busWriteTo (fun t => stable_ramStore t a v) s v
  | ppuRegR a => exact stableNext_busReadFrom (target := fun t => ppuTargetRead t a) (stable_ppuTargetRead s a)
  | ppuRegW a v => exact stableNext_busWriteTo (fun t => stable_ppuTargetWrite t a v) s v
  | apuIoR a => exact stableNext_busReadFrom (target := fun t => apuIoRead t a) ⟨by simp [sameParameters], by simp⟩
  | apuIoW a v => exact stableNext_busWriteTo (fun t => stable_apuTargetWrite t a v) s v
  | cartLowR a => exact stableNext_busReadFrom (target := fun t => cartLowRead t a) ⟨by simp [sameParameters], by simp⟩
  | cartLowW a v => exact stableNext_busWriteTo (fun t => stable_cartLowWrite t a v) s v
  | ppuaPattern0 p => exact stableNext_next (seen p)
  | ppuaPattern1 p => exact stableNext_next (seen p)
  | ppuaNametable p => exact stableNext_next (seen p)
  | ppuaPalette p => exact stableNext_next (seen p)
  | ppuaNtMirror p => exact stableNext_next (seen p)
  | cpuCycle => exact stableNext_next (stable_cpuCycle s)
  | ppuDot => exact stableNext_next (stable_ppuDot s)
  | tick => exact stableNext_next (stable_setMapper s _)
  | boundary => exact stableNext_next (stable_boundary s)
  | irqService => exact stableNext_next (stable_serviceInterrupt _ _ s)
  | nmiService => exact stableNext_next (stable_serviceInterrupt _ _ s)
  | nmiEdge => exact stableNext_next ⟨by simp [sameParameters], by simp⟩
  | frameEnd => exact stableNext_next ⟨by simp [sameParameters], by simp⟩
  | hostReset => exact absurd rfl hreset
  | hostStep input => exact absurd rfl (hstep input)
  | hostBusWrite addr value => exact stableNext_hostBusWrite addr value s
  | hostReadFrame => exact stableNext_hostReadFrame s
  | hostClose => exact stableNext_hostClose s
  | brk pad => exact stableNext_next (((fetched _ _).timed fetchByte_keeps _).enterInterrupt _ _ _)
  | php => exact stableNext_next (((fetched _ _).timed dummyRead_keeps _).timed phpEffect_keeps _)
  | plp =>
    exact stableNext_next ((((fetched _ _).timed dummyRead_keeps _).timed dummyStackRead_keeps _).timed plpEffect_keeps _)
  | rti =>
    exact stableNext_next ((((fetched _ _).timed dummyRead_keeps _).timed dummyStackRead_keeps _).returnFromInterrupt)
  | cli => exact stableNext_next ((fetched _ _).timed cliEffect_keeps _)
  | sei => exact stableNext_next ((fetched _ _).timed seiEffect_keeps _)
  | ldaImm imm => exact stableNext_next ((fetched _ _).timed (loadFetched_keeps imm) _)
  | staAbs addr =>
    exact stableNext_next ((((fetched _ _).timed fetchByte_keeps _).timed fetchByte_keeps _).timed
      (fun u => memWrite_keeps u addr u.cpu.a) _)
  | nop => exact stableNext_next ((fetched _ _).timed dummyRead_keeps _)
  | jmpAbs addr => exact stableNext_next (((fetched _ _).timed fetchByte_keeps _).timed (jump_keeps addr) _)
  | unmodelledOpcode op =>
    exact stableNext_next ((stable_threeDots s).trans (stable_unlessHalted (stable_handOver op) _))

/-- Settles O55: the frame's half of what every command but STEP and RESET keeps. -/
theorem frameIsStableBetweenSteps : Obligations.FrameIsStableBetweenSteps := by
  unfold Obligations.FrameIsStableBetweenSteps
  exact fun _ s t hstep hreset ht => (stableNext_exec hstep hreset s t ht).frame

/-! ## The parameters, through STEP and RESET too (R41) -/

theorem finishStep_sameParameters (s : State) : sameParameters s (finishStep s) := by
  unfold finishStep
  simp only []
  split <;> simp [sameParameters, answer]

theorem startStep_sameParameters (input : Nat) (s : State) : sameParameters s (startStep input s) := by
  simp [sameParameters, startStep]

/-- STEP is its start, a frame of CPU cycles, and its end; or it is refused by its gate (R232). -/
theorem execHostStep_sameParameters {input : Nat} {s t : State} (ht : execHostStep input s = .next t) : sameParameters s t := by
  unfold execHostStep at ht
  split at ht
  case h_1 => cases ht; exact (stable_answer s _).parameters
  case h_2 =>
    split at ht
    case h_1 u hl =>
      have hframe : Stable (startStep input s) u := frameLoop_keeps Stable (fun _ _ _ => .trans) stable_cpuCycle _ _ _ hl
      cases ht
      exact sameParameters_trans (startStep_sameParameters input s)
        (sameParameters_trans hframe.parameters (finishStep_sameParameters u))
    case h_2 => cases ht

/-- RESET restores the collaborators' states, not which there are, and neither the image nor the P_ parameters (R41, R273). -/
theorem execHostReset_sameParameters {s t : State} (ht : execHostReset s = .next t) : sameParameters s t := by
  unfold execHostReset at ht
  split at ht <;> cases ht
  · exact (stable_answer s _).parameters
  · exact ⟨rfl, rfl, rfl, rfl, rfl, rfl, rfl⟩

/-- Settles O59: STEP and RESET keep the parameters, and every other command keeps the frame as well. -/
theorem parametersNeverChange : Obligations.ParametersNeverChange := by
  unfold Obligations.ParametersNeverChange
  intro i s t ht
  by_cases hstep : ∃ input, i = .hostStep input
  · obtain ⟨input, rfl⟩ := hstep
    exact execHostStep_sameParameters ht
  · by_cases hreset : i = .hostReset
    · subst hreset
      exact execHostReset_sameParameters ht
    · exact (stableNext_exec (fun input hi => hstep ⟨input, hi⟩) hreset s t ht).parameters

end Sys2Proof.Machine
end

section
/-! SUPPORT. One step of the machine, an equation per case of log 2 (O56); the class of a PPU address and its A12 (R66; O3, O21); and the
dots at which the reference schedule drives A12 high (R202 to R205; O22). -/

namespace Sys2Proof.Machine

variable {s : State}

/-! ## One step (R67, R93, R107, R263) -/

theorem takeStimulus_of_decode {x : Stimulus} {i : Instr} (hx : decodeStimulus x = .ok i) (s : State) :
    takeStimulus x s = exec i s := by
  simp [takeStimulus, hx]

/-- The gate of a command lets it act in Running, and there alone (R230, R237). -/
theorem commandGate_isNone_iff (c : CommandName) (s : State) : (commandGate c s).isNone = true ↔ condition s = .running := by
  unfold commandGate condition
  cases s.host.closed
  · cases s.host.resetDone
    · simp
    · cases s.host.fault <;> simp
  · simp

/-- Nothing happens outside a STEP with nothing waiting. -/
theorem step_idle (hs : s.host.inStep = false) (hb : s.host.inbox = []) : step s = .next s := by
  simp [step, stepOutside, hs, hb]

section
variable {x : Stimulus} {rest : List Stimulus} (hb : s.host.inbox = x :: rest)
include hb

/-- Outside a STEP a stimulus of a STEP's own is dropped. -/
theorem step_dropped (hs : s.host.inStep = false) (hx : internalStimulus x = true) :
    step s = .next (setHost s { s.host with inbox := rest }) := by
  simp [step, stepOutside, hs, hb, hx]

/-- Outside a STEP the host's stimulus is taken. -/
theorem step_outside (hs : s.host.inStep = false) (hx : internalStimulus x = false) :
    step s = takeOutside x (setHost s { s.host with inbox := rest }) := by
  simp [step, stepOutside, hs, hb, hx]

/-- Inside a STEP a stimulus of the STEP's own is taken. -/
theorem step_stimulus (hs : s.host.inStep = true) (hx : internalStimulus x = true) :
    step s = settled (takeStimulus x (setHost s { s.host with inbox := rest })) := by
  simp [step, stepInside, hs, hb, hx]

/-- Inside a STEP the host's commands wait while the frame goes on. -/
theorem step_waiting (hs : s.host.inStep = true) (hx : internalStimulus x = false) :
    step s = .next (settle (frameOperation s)) := by
  simp [step, stepInside, hs, hb, hx]

end

/-- Inside a STEP with nothing waiting the frame goes on. -/
theorem step_operation (hs : s.host.inStep = true) (hb : s.host.inbox = []) : step s = .next (settle (frameOperation s)) := by
  simp [step, stepInside, hs, hb]

theorem takeOutside_step (input : Nat) (s : State) :
    takeOutside (.host (.step input)) s =
      if condition s = .running then .next (startStep input s) else exec (.hostStep input) s := by
  simp only [takeOutside, commandGate_isNone_iff]
  rfl

/-- Settles O56: the step's own equations, case by case; the gate of a waiting STEP is Running. -/
theorem stepTakesTheOldestStimulus : Obligations.StepTakesTheOldestStimulus := by
  unfold Obligations.StepTakesTheOldestStimulus
  intro x rest i s u
  refine ⟨fun hs => ⟨step_idle hs, fun hb => step_dropped hb hs, fun hb hx hd => ?outside⟩, fun hs => ⟨?stimulus, ?operation⟩⟩
  case outside =>
    rw [step_outside hb hs hx]
    split
    case h_1 input =>
      cases hd
      exact takeOutside_step input u
    case h_2 hne =>
      rw [← takeStimulus_of_decode hd]
      unfold takeOutside
      split
      · exact absurd rfl (hne _)
      all_goals rfl
  case stimulus =>
    intro t hb hx hd ht
    rw [step_stimulus hb hs hx, takeStimulus_of_decode hd]
    exact congrArg settled ht
  case operation =>
    rintro (hb | ⟨hb, hx⟩)
    · exact step_operation hs hb
    · exact step_waiting hb hs hx

/-! ## The class of a PPU address (R66, R81, R94) -/

/-- The class of every PPU address admits it. -/
theorem ppuaInstr_wellFormed {r : PpuaRow} {p : PAddr} (h : decodePpuaRow p = some r) : (ppuaInstr r p).wellFormed = true := by
  have hp := p.isLt
  rw [decodePpuaRow_eq] at h
  cases h
  (repeat' split) <;> simp only [ppuaInstr, Instr.wellFormed, inPpuRange, decide_eq_true_eq] <;> omega

theorem encode_ppuaInstr (r : PpuaRow) (p : PAddr) : encode (ppuaInstr r p) = .stimulus (.ppua (p.setWidth 16)) := by
  cases r <;> rfl

/-- Every 14-bit address, on 16 lines, decodes to its class. -/
theorem decodeStimulus_ppua (p : PAddr) :
    ∃ r, decodePpuaRow p = some r ∧ decodeStimulus (.ppua (p.setWidth 16)) = .ok (ppuaInstr r p) := by
  obtain ⟨hlt, hp⟩ := ppuaWord p
  refine ⟨_, decodePpuaRow_eq p, ?_⟩
  simp only [decodeStimulus, if_pos hlt, hp, decodePpuaRow_eq]

/-- A word's low 14 bits, on 16 lines. -/
theorem truncateAddr_setWidth (w : BitVec 16) : (truncateAddr w).setWidth 16 = w &&& 0x3FFF := by
  apply BitVec.eq_of_toNat_eq
  have h := Nat.and_two_pow_sub_one_eq_mod w.toNat 14
  simp [truncateAddr] at h ⊢
  omega

theorem truncateAddr_setWidth_narrow {w : BitVec 16} (h : w.toNat < 0x4000) : (truncateAddr w).setWidth 16 = w := by
  apply BitVec.eq_of_toNat_eq
  simp [truncateAddr]
  omega

theorem decodeStimulus_wide {w : BitVec 16} (h : 0x4000 ≤ w.toNat) : decodeStimulus (.ppua w) = .error (.ppuAddrWidth w) := by
  simp only [decodeStimulus, if_neg (Nat.not_lt.2 h)]

theorem takeStimulus_wide {w : BitVec 16} (h : 0x4000 ≤ w.toNat) (s : State) :
    takeStimulus (.ppua w) s = .next (raisePpuAddrWidth (seenAddress (truncateAddr w) s) w) := by
  simp only [takeStimulus, decodeStimulus_wide h]

/-- A fault inside a STEP ends it, and the STEP's outcome is the fault's (R250). -/
theorem settle_raiseFault (hs : s.host.inStep = true) (r : FaultReason) :
    settle (raiseFault s r) = setHost s { s.host with fault := some r, reply := reasonReply r, inStep := false } := by
  simp [settle, finishStep, halted, raiseFault, setHost, hs]

/-- Settles O3: a narrow word is its own low 14 bits, which have a class; a step that takes a wide one is the row of its low 14 bits and
then the fault, settled. -/
theorem everyPpuAddressHasItsClass : Obligations.EveryPpuAddressHasItsClass := by
  unfold Obligations.EveryPpuAddressHasItsClass
  intro w rest s
  obtain ⟨r, hr, hd⟩ := decodeStimulus_ppua (truncateAddr w)
  constructor
  · intro hw
    have hself := truncateAddr_setWidth_narrow hw
    rw [hself] at hd
    exact ⟨_, hd, ppuaInstr_wellFormed hr, by rw [encode_ppuaInstr, hself]⟩
  · intro hw
    refine ⟨decodeStimulus_wide hw, fun hs hb => ⟨_, seenAddress (truncateAddr w) (setHost s { s.host with inbox := rest }),
      truncateAddr_setWidth w ▸ hd, exec_ppuaInstr _ _ _, ?_⟩⟩
    rw [step_stimulus hb hs rfl, takeStimulus_wide hw]
    simp only [settled, raisePpuAddrWidth]
    rw [settle_raiseFault (by simpa [seenAddress] using hs)]
    simp [seenAddress, reasonReply, setHost]

/-! ## What the decoder does with an address (R206, R207, R209) -/

/-- A12 of an address, by its class (R66). -/
theorem paddr_a12 (p : PAddr) :
    p.getLsbD 12 = decide ((0x1000 ≤ p.toNat ∧ p.toNat ≤ 0x1FFF) ∨ 0x3000 ≤ p.toNat) := by
  have := p.isLt
  rw [BitVec.getLsbD, Nat.testBit_eq_decide_div_mod_eq, decide_eq_decide]
  omega

/-- A low A12 is one more low dot, and ticks nothing. -/
theorem observe_low {p : PAddr} (hp : p.getLsbD 12 = false) (s : State) (l : Nat) :
    observe s p l = { s with edge := { s.edge with
      prevA12 := false, lowRun := min (s.edge.lowRun + 1) s.params.a12LowMin } } := by
  have hf : edgeFires s.params.a12LowMin s.edge false (renderingActive s l) = false := by simp [edgeFires]
  unfold observe edgeNext
  rw [hp, hf, Bool.or_false]
  rfl

/-- A high A12 ends the run of low dots, and ticks where the edge fires. -/
theorem observe_high {p : PAddr} (hp : p.getLsbD 12 = true) {s : State} {l : Nat} {fires : Bool}
    (hf : edgeFires s.params.a12LowMin s.edge true (renderingActive s l) = fires) :
    observe s p l = { s with
      edge := { prevA12 := true, lowRun := 0, firedLine := s.edge.firedLine || fires }
      mapper := if fires then mapperTick s.mapper else s.mapper } := by
  unfold observe edgeNext
  rw [hp, hf]
  cases fires <;> rfl

/-- Settles O21: every class is the decoder's answer to its address, whose A12 the class fixes. -/
theorem ppuAddressRows : Obligations.PpuAddressRows := by
  unfold Obligations.PpuAddressRows
  intro p s active fires low high
  have hfires : edgeFires s.params.a12LowMin s.edge true (renderingActive s s.sched.line) = fires := by
    rw [renderingActive_eq, edgeFires, Bool.and_true]
    rfl
  have hlow (h : p.getLsbD 12 = false) : Host.Outcome.next (seenAddress p s) = (.next low : Result) :=
    congrArg _ (observe_low h s _)
  have hhigh (h : p.getLsbD 12 = true) : Host.Outcome.next (seenAddress p s) = (.next high : Result) :=
    congrArg _ (observe_high h hfires)
  simp only [paddr_a12, decide_eq_true_eq, decide_eq_false_iff_not] at hlow hhigh
  simp only [Instr.wellFormed, inPpuRange, decide_eq_true_eq]
  exact ⟨fun h => hlow (by omega), fun h => hlow (by omega), fun h => hhigh (by omega), fun h => hhigh (by omega),
    fun h => hhigh (by omega)⟩

/-! ## The dots with A12 high (R202 to R205) -/

/-- The second half of one of n slots of 8 dots from a dot on, and the slot it is in: its number is how many slots went by. -/
theorem exists_slot_iff {first : Nat} (hf : first % 8 = 1) (n d : Nat) (P : Nat → Prop) :
    (∃ slot, slot < n ∧ 8 * slot + (first + 4) ≤ d ∧ d ≤ 8 * slot + (first + 7) ∧ P slot) ↔
      first ≤ d ∧ d < first + 8 * n ∧ 4 ≤ slotOffset d ∧ P ((d - first) / 8) := by
  unfold slotOffset
  constructor
  · rintro ⟨slot, hn, hlo, hhi, hP⟩
    have hslot : (d - first) / 8 = slot := by omega
    exact ⟨by omega, by omega, by omega, hslot ▸ hP⟩
  · rintro ⟨hlo, hhi, hhalf, hP⟩
    exact ⟨(d - first) / 8, by omega, by omega, by omega, hP⟩

/-- A12 is high in the second half of a slot: of a sprite slot by its sprite's table, of a background slot by `P.ctrl[4]`. -/
theorem scheduleAddr_a12_iff (s : State) (l d : Nat) :
    (scheduleAddr s l d).getLsbD 12 = true ↔ 1 ≤ d ∧ d ≤ 336 ∧ 4 ≤ slotOffset d ∧
      (if 257 ≤ d ∧ d ≤ 320 then spriteTable s l d else ctrlBackground s.ppu.ctrl) = true := by
  unfold scheduleAddr
  split
  · exact iff_of_false (by decide) (by omega)
  · split
    · exact iff_of_false (by decide) (by omega)
    · split
      · exact iff_of_false (by decide) (by omega)
      · rw [← apply_ite patternAddr, patternAddr_a12]
        exact ⟨fun h => ⟨by omega, by omega, by omega, h⟩, fun ⟨_, _, _, h⟩ => h⟩

/-- The same by the tables of R202 and R203: 32 background slots, 8 sprite slots, and 2 background slots of the next line. -/
theorem scheduleAddr_a12_slots (s : State) (l d : Nat) :
    (scheduleAddr s l d).getLsbD 12 = true ↔
      (ctrlBackground s.ppu.ctrl = true ∧
          ((∃ slot, slot < 32 ∧ 8 * slot + 5 ≤ d ∧ d ≤ 8 * slot + 8) ∨
            (∃ slot, slot < 2 ∧ 8 * slot + 325 ≤ d ∧ d ≤ 8 * slot + 328))) ∨
        (∃ slot, slot < 8 ∧ 8 * slot + 261 ≤ d ∧ d ≤ 8 * slot + 264 ∧
          (if ctrlTall s.ppu.ctrl then spr16A12 s l slot else ctrlSprite s.ppu.ctrl) = true) := by
  have hline := exists_slot_iff (first := 1) rfl 32 d (fun _ => True)
  have hnext := exists_slot_iff (first := 321) rfl 2 d (fun _ => True)
  have hsprite := exists_slot_iff (first := 257) rfl 8 d
    (fun slot => (if ctrlTall s.ppu.ctrl then spr16A12 s l slot else ctrlSprite s.ppu.ctrl) = true)
  simp only [Nat.reduceAdd, Nat.reduceMul, and_true] at hline hnext hsprite
  rw [scheduleAddr_a12_iff, hline, hnext, hsprite]
  change _ ↔ _ ∨ (_ ∧ _ ∧ _ ∧ spriteTable s l d = true)
  split <;> grind

/-- Where nothing is fetched the address is 0 (R205). -/
theorem ppuFetchAddr_idle {l : Nat} (h : (renderingEnabled s && renderingLine l) = false) (d : Nat) : ppuFetchAddr s l d = 0 := by
  simp [ppuFetchAddr, ppuBusWord, h, truncateAddr]

/-- Settles O22: A12 is the schedule's on the lines with fetches, slot by slot, and every address lies below the nametable mirror. -/
theorem fetchScheduleDrivesA12 : Obligations.FetchScheduleDrivesA12 := by
  unfold Obligations.FetchScheduleDrivesA12
  intro l d s _
  have hbelow := ppuFetchAddr_below_mirror s l d
  refine ⟨?schedule, fun hfull _ => by simp [spr16A12, hfull], fun hidle => ppuFetchAddr_idle ?idle d, hbelow, ?table1⟩
  case schedule =>
    rw [ppuFetchAddr_a12, ppuBusWord_a12, Bool.and_eq_true, Bool.and_eq_true, renderingLine_iff, scheduleAddr_a12_slots, and_assoc]
    rfl
  case idle =>
    rw [Bool.and_eq_false_iff]
    rcases hidle with ⟨h3, h4⟩ | hl
    · left; simp only [renderingEnabled, h3, h4, Bool.or_self]
    · right; rw [← Bool.not_eq_true, renderingLine_iff]; omega
  case table1 =>
    rw [paddr_a12, decide_eq_true_eq]
    omega

/-! ## Words of the spec (R66, R80, R84, R89, R90) -/

/-- Settles O4: each word is decoded by its table. -/
theorem specWordsDecode : Obligations.SpecWordsDecode := by
  unfold Obligations.SpecWordsDecode
  exact ⟨rfl, rfl, rfl, rfl, rfl, rfl, rfl, rfl, rfl, rfl⟩

end Sys2Proof.Machine
end

section
/-! SUPPORT. The encoding against the decoder, format by format (R80 to R94; O1, O5); a bus transaction against the route of its address
(R88, R140; O2); and what the cartridge's targets and the IRQ registers do with theirs (R84, R86, R87, R144, R145; O19, O20). -/

namespace Sys2Proof

/-! ## F-BUS rows: direction and window (R80, R84, R88) -/

/-- The direction of a row: a read has rw = 1 (R80). -/
def BusRow.isRead : BusRow → Bool
  | .cartPrgR | .ramR | .ppuRegR | .apuIoR | .cartLowR => true
  | .irqLatchW | .irqReloadW | .irqDisableAckW | .irqEnableW | .bankW | .ramW | .ppuRegW | .apuIoW | .cartLowW => false

/-- {rw, addr} of a transaction in a direction (R80). -/
def busHead (read : Bool) (a : Addr) : BitVec 17 := if read then readHead a else writeHead a

@[simp] theorem busAddr_busHead (read : Bool) (a : Addr) : busAddr (busHead read a) = a := by
  cases read
  · exact busAddr_writeHead a
  · exact busAddr_readHead a

theorem encode_busInstr (r : BusRow) (a : Addr) (v : Byte) :
    encode (busInstr r a v) = .stimulus (.bus (busHead r.isRead a) (if r.isRead then 0 else v)) := by
  cases r <;> rfl

/-- A read's data byte is not part of its command (R80). -/
theorem busInstr_encodedData (r : BusRow) (a : Addr) (v : Byte) : busInstr r a (if r.isRead then 0 else v) = busInstr r a v := by
  cases r <;> rfl

/-- Every address has a row in each direction (R88). -/
theorem exists_busRow (read : Bool) (a : Addr) : ∃ r : BusRow, decodeBusRow (busHead read a) = some r ∧ r.isRead = read := by
  cases read
  · exact ⟨_, decodeBusRow_write a, by (repeat' split) <;> rfl⟩
  · exact ⟨_, decodeBusRow_read a, by (repeat' split) <;> rfl⟩

/-- A row admits exactly the addresses that the table decodes to it: the windows of WellFormed are those of the fixed fields. -/
theorem busInstr_wellFormed_iff (r : BusRow) (a : Addr) (v : Byte) :
    (busInstr r a v).wellFormed = true ↔ decodeBusRow (busHead r.isRead a) = some r := by
  have hlt := a.isLt
  have hread : decodeBusRow (busHead true a) = _ := decodeBusRow_read a
  have hwrite : decodeBusRow (busHead false a) = _ := decodeBusRow_write a
  cases r
  all_goals
    simp only [BusRow.isRead, hread, hwrite, busInstr, Instr.wellFormed, selectsIrq, inRange, Bool.and_eq_true, beq_iff_eq,
      decide_eq_true_eq, decide_eq_false_iff_not]
    (repeat' split) <;> simp <;> omega

/-- A well-formed transaction decodes to its command. -/
theorem decodeStimulus_busInstr {r : BusRow} {a : Addr} {v : Byte} (h : (busInstr r a v).wellFormed = true) :
    decodeStimulus (.bus (busHead r.isRead a) v) = .ok (busInstr r a v) := by
  simp only [decodeStimulus, (busInstr_wellFormed_iff r a v).1 h, busAddr_busHead]

theorem decode_encode_busInstr (r : BusRow) (a : Addr) (v : Byte) (h : (busInstr r a v).wellFormed = true) :
    decode (encode (busInstr r a v)) = .ok (busInstr r a v) := by
  rw [encode_busInstr]
  rw [← busInstr_encodedData] at h ⊢
  exact decodeStimulus_busInstr h

/-! ## F-PPUA classes (R66, R81, R94) -/

/-- A class admits only the addresses that the table decodes to it. -/
theorem decodePpuaRow_of_wellFormed {r : PpuaRow} {p : PAddr} (h : (ppuaInstr r p).wellFormed = true) : decodePpuaRow p = some r := by
  rw [decodePpuaRow_eq]
  cases r
  all_goals
    simp only [ppuaInstr, Instr.wellFormed, inPpuRange, decide_eq_true_eq] at h
    (repeat' split) <;> first | rfl | omega

theorem decode_encode_ppuaInstr (r : PpuaRow) (p : PAddr) (h : (ppuaInstr r p).wellFormed = true) :
    decode (encode (ppuaInstr r p)) = .ok (ppuaInstr r p) := by
  obtain ⟨r', hr', hd⟩ := Machine.decodeStimulus_ppua p
  obtain rfl : r = r' := Option.some.inj ((decodePpuaRow_of_wellFormed h).symm.trans hr')
  rw [Machine.encode_ppuaInstr]
  exact hd

/-! ## F-OP (R83, R89, R90) -/

/-- The opcode byte of each of the ten instructions (R89). -/
def OpKind.opcode : OpKind → Byte
  | .brk => 0x00
  | .php => 0x08
  | .plp => 0x28
  | .rti => 0x40
  | .cli => 0x58
  | .sei => 0x78
  | .ldaImm => 0xA9
  | .staAbs => 0x8D
  | .nop => 0xEA
  | .jmpAbs => 0x4C

theorem opKind_eq_some_iff {b : Byte} {k : OpKind} : opKind b = some k ↔ b = k.opcode := by
  constructor
  · intro h
    unfold opKind at h
    (repeat' split at h) <;> cases h <;> exact ‹b = _›
  · rintro rfl
    cases k <;> rfl

/-- A well-formed unmodelled opcode is none of the ten. -/
theorem opKind_eq_none_of_wellFormed {b : Byte} (h : (Instr.unmodelledOpcode b).wellFormed = true) : opKind b = none := by
  rw [Option.eq_none_iff_forall_ne_some]
  intro k hk
  rw [opKind_eq_some_iff.1 hk] at h
  cases k <;> contradiction

theorem decode_unmodelledOpcode {b : Byte} (h : (Instr.unmodelledOpcode b).wellFormed = true) :
    decode (.op [b]) = .ok (.unmodelledOpcode b) := by
  simp only [decode, decodeOp, opKind_eq_none_of_wellFormed h]

/-- An address operand stands low byte first (R90). -/
theorem decode_staAbs (a : Addr) : decode (.op [0x8D, lowByte a, highByte a]) = .ok (.staAbs a) :=
  congrArg (fun x => Except.ok (Instr.staAbs x)) (joinBytes_high_low a)

theorem decode_jmpAbs (a : Addr) : decode (.op [0x4C, lowByte a, highByte a]) = .ok (.jmpAbs a) :=
  congrArg (fun x => Except.ok (Instr.jmpAbs x)) (joinBytes_high_low a)

/-! ## Every command -/

/-- Settles O1, format by format: a bus row and a PPU class by their tables, an event and a host command by its name, an instruction by
its opcode byte and the order of its operand bytes. -/
theorem decodeEncodeRoundTrip : Obligations.DecodeEncodeRoundTrip := by
  unfold Obligations.DecodeEncodeRoundTrip
  intro i hi
  cases i with
  | irqLatchW a v => exact decode_encode_busInstr .irqLatchW a v hi
  | irqReloadW a v => exact decode_encode_busInstr .irqReloadW a v hi
  | irqDisableAckW a v => exact decode_encode_busInstr .irqDisableAckW a v hi
  | irqEnableW a v => exact decode_encode_busInstr .irqEnableW a v hi
  | bankW a v => exact decode_encode_busInstr .bankW a v hi
  | cartPrgR a => exact decode_encode_busInstr .cartPrgR a 0 hi
  | ramR a => exact decode_encode_busInstr .ramR a 0 hi
  | ramW a v => exact decode_encode_busInstr .ramW a v hi
  | ppuRegR a => exact decode_encode_busInstr .ppuRegR a 0 hi
  | ppuRegW a v => exact decode_encode_busInstr .ppuRegW a v hi
  | apuIoR a => exact decode_encode_busInstr .apuIoR a 0 hi
  | apuIoW a v => exact decode_encode_busInstr .apuIoW a v hi
  | cartLowR a => exact decode_encode_busInstr .cartLowR a 0 hi
  | cartLowW a v => exact decode_encode_busInstr .cartLowW a v hi
  | ppuaPattern0 p => exact decode_encode_ppuaInstr .pattern0 p hi
  | ppuaPattern1 p => exact decode_encode_ppuaInstr .pattern1 p hi
  | ppuaNametable p => exact decode_encode_ppuaInstr .nametable p hi
  | ppuaPalette p => exact decode_encode_ppuaInstr .palette p hi
  | ppuaNtMirror p => exact decode_encode_ppuaInstr .ntMirror p hi
  | cpuCycle | ppuDot | tick | boundary | irqService | nmiService | nmiEdge | frameEnd => rfl
  | hostReset | hostStep _ | hostBusWrite _ _ | hostReadFrame | hostClose => rfl
  | brk _ | php | plp | rti | cli | sei | ldaImm _ | nop => rfl
  | staAbs a => exact decode_staAbs a
  | jmpAbs a => exact decode_jmpAbs a
  | unmodelledOpcode op => exact decode_unmodelledOpcode hi

/-- Settles O5: an opcode byte is that of one of the ten kinds, each with its own operands, or of none. -/
theorem opcodeByteFixesTheInstruction : Obligations.OpcodeByteFixesTheInstruction := by
  unfold Obligations.OpcodeByteFixesTheInstruction
  intro b x y rest
  cases hb : opKind b with
  | some k =>
    obtain rfl := opKind_eq_some_iff.1 hb
    cases k <;> rfl
  | none =>
    have hne : ∀ k : OpKind, b ≠ k.opcode := fun k hk => by simp [opKind_eq_some_iff.2 hk] at hb
    simp only [decodeOp, hb]
    exact congrArg Except.ok <| Eq.symm <| (if_neg (hne .brk)).trans <| (if_neg (hne .php)).trans <| (if_neg (hne .plp)).trans <|
      (if_neg (hne .rti)).trans <| (if_neg (hne .cli)).trans <| (if_neg (hne .sei)).trans <| (if_neg (hne .ldaImm)).trans <|
      (if_neg (hne .staAbs)).trans <| (if_neg (hne .nop)).trans <| if_neg (hne .jmpAbs)

end Sys2Proof

namespace Sys2Proof.Machine

variable {s : State}

/-! ## A bus row runs its route (R140, R146, R147) -/

/-- The target of a row (R140). -/
def busTarget : BusRow → Target
  | .irqLatchW | .irqReloadW | .irqDisableAckW | .irqEnableW => .mapperIrq
  | .bankW => .cartBank
  | .cartPrgR => .cartPrg
  | .ramR | .ramW => .ram
  | .ppuRegR | .ppuRegW => .ppuReg
  | .apuIoR | .apuIoW => .apuIo
  | .cartLowR | .cartLowW => .cartLow

/-- The route of an address that a row admits. -/
theorem route_of_wellFormed {r : BusRow} {a : Addr} {v : Byte} (h : (busInstr r a v).wellFormed = true) :
    route r.isRead a = busTarget r := by
  unfold route
  cases r
  all_goals
    simp only [busInstr, Instr.wellFormed, selectsIrq, inRange, Bool.and_eq_true, decide_eq_true_eq] at h
    simp only [BusRow.isRead, if_true, Bool.false_eq_true, if_false]
    (repeat' split) <;> first | rfl | omega

/-- A well-formed transaction of a row does what the route of its address does: MemRead or MemWrite. -/
theorem exec_busInstr {r : BusRow} {a : Addr} {v : Byte} (h : (busInstr r a v).wellFormed = true) (s : State) :
    exec (busInstr r a v) s = .next (if r.isRead then (memRead s a).2 else memWrite s a v) := by
  have hroute := route_of_wellFormed h
  cases r
  case cartPrgR | ramR | ppuRegR | apuIoR | cartLowR =>
    simp only [BusRow.isRead, busTarget] at hroute
    simp only [BusRow.isRead, if_true, memRead, targetRead, hroute]
    rfl
  case bankW | ramW | ppuRegW | apuIoW | cartLowW =>
    simp only [BusRow.isRead, busTarget] at hroute
    simp only [BusRow.isRead, Bool.false_eq_true, if_false, memWrite, targetWrite, hroute]
    rfl
  case irqLatchW | irqReloadW | irqDisableAckW | irqEnableW =>
    simp only [busInstr, Instr.wellFormed, selectsIrq, inRange, Bool.and_eq_true, beq_iff_eq, decide_eq_true_eq,
      decide_eq_false_iff_not] at h
    obtain ⟨hrange, hparity⟩ := h
    have hmapper : 0xC000 ≤ a.toNat := by omega
    simp only [BusRow.isRead, Bool.false_eq_true, if_false, memWrite_of_mapper s a v hmapper, mapperTargetWrite, irqRegOf_eq a hmapper]
    (repeat' split) <;> first | rfl | omega

/-- Settles O2: in each direction the address has a row, which admits it, decodes to its command and runs its route. -/
theorem everyBusTransactionRunsItsRoute : Obligations.EveryBusTransactionRunsItsRoute := by
  unfold Obligations.EveryBusTransactionRunsItsRoute
  intro a v s
  have hrun : ∀ read, ∃ i, decodeStimulus (.bus (busHead read a) v) = .ok i ∧ i.wellFormed = true ∧
      exec i s = .next (if read then (memRead s a).2 else memWrite s a v) := by
    intro read
    obtain ⟨r, hrow, rfl⟩ := exists_busRow read a
    have hwf := (busInstr_wellFormed_iff r a v).2 hrow
    exact ⟨_, decodeStimulus_busInstr hwf, hwf, exec_busInstr hwf s⟩
  exact ⟨hrun false, hrun true⟩

/-! ## The cartridge's targets (R86, R87, R144, R145) -/

/-- The end of a read leaves what it gives in the latch, as it was if undriven (R146, R148). -/
theorem finishRead_state (r : Option Byte × State) : (finishRead r).2 = setOpenBus r.2 (r.1.getD r.2.bus.openBus) := by
  unfold finishRead
  cases r.1 <;> rfl

theorem bankWrite_eq (s : State) (a : Addr) (v : Byte) : bankWrite s a v =
    setExt s (if s.ext.cart then { s.ext with bankSt := Config.bankWrite s.ext.bankSt a v } else s.ext) := by
  unfold bankWrite
  split <;> rfl

theorem cartLowWrite_eq (s : State) (a : Addr) (v : Byte) : cartLowWrite s a v =
    setExt s (if s.ext.cart then { s.ext with cartSt := Config.cartLowWrite s.ext.cartSt s.ext.bankSt a v } else s.ext) := by
  unfold cartLowWrite
  split <;> rfl

theorem cartLowRead_absent (h : s.ext.cart = false) (a : Addr) : cartLowRead s a = (none, s) := by
  simp [cartLowRead, h]

theorem cartLowRead_present (h : s.ext.cart = true) (a : Addr) : cartLowRead s a =
    ((Config.cartLowRead s.ext.cartSt s.ext.bankSt a).1,
      setExt s { s.ext with cartSt := (Config.cartLowRead s.ext.cartSt s.ext.bankSt a).2 }) := by
  simp [cartLowRead, h]

/-- Settles O19: each row is its bus access to the collaborator's one call, present or absent. -/
theorem cartridgeAccess : Obligations.CartridgeAccess := by
  unfold Obligations.CartridgeAccess
  intro a v s
  refine ⟨fun _ => rfl, fun _ _ => ?bank, fun _ _ => ⟨?lowWrite, fun hc => ?absent, fun hc => ?present⟩⟩
  case bank => exact congrArg Host.Outcome.next (bankWrite_eq (setOpenBus s v) a v)
  case lowWrite => exact congrArg Host.Outcome.next (cartLowWrite_eq (setOpenBus s v) a v)
  case absent =>
    change Host.Outcome.next (finishRead (cartLowRead s a)).2 = _
    rw [cartLowRead_absent hc]
    rfl
  case present =>
    change Host.Outcome.next (finishRead (cartLowRead s a)).2 = _
    rw [cartLowRead_present hc, finishRead_state]
    rfl

/-! ## The Mapper IRQ unit's range (R84, R120) -/

/-- Settles O20: a read keeps the unit, a write below its range too, and one in it is the register write of its address. -/
theorem mapperSeesOnlyItsOwnRange : Obligations.MapperSeesOnlyItsOwnRange := by
  unfold Obligations.MapperSeesOnlyItsOwnRange
  intro a v s
  refine ⟨memRead_mapper s a, fun h => ?below, fun h => ?inside⟩
  case below => rw [memWrite_mapper, if_neg (by omega)]
  case inside =>
    rw [memWrite_of_mapper s a v h, mapperTargetWrite, irqRegOf_eq a h]
    rcases Nat.lt_or_ge a.toNat 0xE000 with hlow | hhigh
    · rw [if_neg (Nat.not_le.2 hlow), if_pos hlow]
      split <;> rfl
    · rw [if_pos hhigh, if_neg (Nat.not_lt.2 hhigh)]
      split <;> rfl

end Sys2Proof.Machine
end

section
/-! SUPPORT. The scheduler's own time: a dot's position, that dots leave the CPU's side alone, one CPU cycle (R100 to R106, R214; O26, O29,
O30), and the operations whose accesses touch the CPU's side alone, which leave the rest to the dots (R160; O47). -/

namespace Sys2Proof.Machine

variable {s t : State}

/-! ## The position after a dot (R104 to R106, R94) -/

/-- A dot that is not stopped at the decoder moves the position; one that is moves nothing. -/
theorem ppuDot_sched_running (h : halted s = false) : (ppuDot s).sched =
    if tooWide (currentWord s) then s.sched else schedAfterDot s.params (renderingEnabled s) s.sched := by
  rw [ppuDot_running h]
  split
  · simp [raisePpuAddrWidth, raiseFault]
  · exact wholeDot_sched s

/-- Settles O26: the position after a dot, with the two ways to wrap in the order of R104. -/
theorem dotMovesThePosition : Obligations.DotMovesThePosition := by
  unfold Obligations.DotMovesThePosition
  intro s
  refine ⟨rfl, fun hf => ⟨ppuDot s, rfl, ?_⟩⟩
  intro skip wrapsHere
  have hw : wraps (maySkip s.params (renderingEnabled s)) s.sched = wrapsHere := by
    simp [wraps, maySkip, renderingEnabled, wrapsHere, skip, Bool.or_comm, Bool.and_assoc]
  rw [ppuDot_sched_running (by simp [halted, hf]), schedAfterDot, hw]
  simp only [tooWide, decide_eq_true_eq]
  rfl

/-! ## The dots leave the CPU's side alone (R103, R214) -/

theorem dots_withCpuSide (n : Nat) (s : State) (c : Cpu) (b : BusUnit) (m : Memory) (k : Nat) :
    dots n (withCpuSide s c b m k) = withCpuSide (dots n s) c b m k := by
  induction n generalizing s with
  | zero => rfl
  | succ n ih => rw [dots, ppuDot_withCpuSide, ih, dots]

/-- Settles O29: the cycle count, which the dots keep, is not replaced. -/
theorem dotsIgnoreTheCpu : Obligations.DotsIgnoreTheCpu := by
  unfold Obligations.DotsIgnoreTheCpu
  intro n s c b m
  calc dots n { s with cpu := c, bus := b, ram := m }
      = withCpuSide (dots n s) c b m s.sched.cpuCycles := dots_withCpuSide n s c b m s.sched.cpuCycles
    _ = { dots n s with cpu := c, bus := b, ram := m } := by rw [← dots_sched_cpuCycles n s]; rfl

/-! ## One CPU cycle (R102) -/

/-- Where its dots leave no fault, a CPU cycle is its action, counted unless it was refused. -/
theorem cpuCycle_of_dots (h : halted (threeDots s) = false) :
    cpuCycle s = unlessHalted countCycle (performCycle (boundary (threeDots s))) := by
  rw [cpuCycle, unlessHalted, if_neg (by simp [h])]
  rfl

theorem unlessHalted_countCycle_host (t : State) : (unlessHalted countCycle t).host = t.host := by
  unfold unlessHalted
  split <;> rfl

/-- Settles O30: the three dots, the action and the count; where no address is too wide, only a refused opcode fetch stops it. -/
theorem cpuCycleIsThreeDots : Obligations.CpuCycleIsThreeDots := by
  unfold Obligations.CpuCycleIsThreeDots
  intro s
  refine ⟨cpuCycle s, rfl, ?_⟩
  intro d u
  refine ⟨fun hf => ?stopped, fun hf => ?action, fun hu => ?unstopped⟩
  case stopped =>
    have hd : halted d = true := by simpa [halted, Option.isSome_iff_ne_none] using hf
    exact if_pos hd
  case action =>
    rw [cpuCycle_of_dots (by simp [threeDots_eq, halted, d, hf]), unlessHalted]
    change (if halted u then u else countCycle u) = if u.host.fault = none then countCycle u else u
    cases hq : u.host.fault <;> simp [halted, hq]
  case unstopped =>
    have hd : d.host.fault = none := ((unstopped_iff d).1 (unstopped_dots hu 3)).1
    refine ⟨hd, ?_⟩
    rcases cpuCycle_unstopped hu with ⟨htook, hhost⟩ | ⟨hx, hsched, a, op, hhost⟩
    · have hq : u.host = d.host := by
        rw [← hhost, cpuCycle_of_dots (halted_of_unstopped (unstopped_threeDots hu)), unlessHalted_countCycle_host]
        rfl
      exact .inl ⟨hq ▸ hd, htook⟩
    · exact .inr ⟨hx, hsched, a, op, by rw [hhost], by rw [hhost]⟩

/-! ## Accesses that touch the CPU's side alone (R141, R144, R160) -/

/-- The CPU, the latch and RAM may differ, and nothing else. -/
def TouchesCpuSide (s t : State) : Prop := ∃ c b m, t = withCpuSide s c b m s.sched.cpuCycles

theorem TouchesCpuSide.refl (s : State) : TouchesCpuSide s s := ⟨_, _, _, rfl⟩

theorem TouchesCpuSide.trans {u : State} (h1 : TouchesCpuSide s t) (h2 : TouchesCpuSide t u) : TouchesCpuSide s u := by
  obtain ⟨c, b, m, rfl⟩ := h1
  obtain ⟨c', b', m', rfl⟩ := h2
  exact ⟨c', b', m', rfl⟩

/-- A write of the CPU's own registers. -/
theorem TouchesCpuSide.cpu (s : State) (c : Cpu) : TouchesCpuSide s { s with cpu := c } := ⟨c, _, _, rfl⟩

/-- A read of RAM or PRG has no device to change. -/
theorem touches_memRead {a : Addr} (h : placeable a = true) (s : State) : TouchesCpuSide s (memRead s a).2 := by
  rw [memRead_placeable s a h]
  exact ⟨_, _, _, rfl⟩

theorem touches_fetchByte (h : placeable s.cpu.pc = true) : TouchesCpuSide s (fetchByte s).2 :=
  (touches_memRead h s).trans (.cpu _ _)

theorem touches_push (s : State) (v : Byte) : TouchesCpuSide s (push s v) := by
  rw [push_eq]
  exact ⟨_, _, _, rfl⟩

theorem touches_pull (s : State) : TouchesCpuSide s (pull s).2 := by
  rw [pull_eq]
  exact ⟨_, _, _, rfl⟩

theorem touches_dummyStackRead (s : State) : TouchesCpuSide s (dummyStackRead s) := by
  rw [dummyStackRead_eq]
  exact ⟨_, _, _, rfl⟩

/-- Taking an interrupt writes the stack and reads the vector. -/
theorem touches_enterCycle {vector : Addr} (h1 : placeable vector = true) (h2 : placeable (vector + 1) = true) (brk : Bool)
    (k : Nat) (lo : Byte) (s : State) : TouchesCpuSide s (enterCycle vector brk k lo s).2 := by
  unfold enterCycle
  split
  · exact touches_push s _
  · exact touches_push s _
  · exact (touches_push s _).trans (.cpu _ _)
  · exact touches_memRead h1 s
  · exact (touches_memRead h2 s).trans (.cpu _ _)
  · exact .refl s

theorem touches_returnCycle (k : Nat) (lo : Byte) (s : State) : TouchesCpuSide s (returnCycle k lo s).2 := by
  unfold returnCycle
  split
  · exact (touches_pull s).trans (.cpu _ _)
  · exact touches_pull s
  · exact (touches_pull s).trans (.cpu _ _)
  · exact .refl s

/-! The last cycles of the instructions (R174 to R184). -/

theorem touches_phpEffect (s : State) : TouchesCpuSide s (phpEffect s) := touches_push s _

theorem touches_plpEffect (s : State) : TouchesCpuSide s (plpEffect s) := (touches_pull s).trans (.cpu _ _)

section
variable (h : placeable s.cpu.pc = true)
include h

theorem touches_seiEffect : TouchesCpuSide s (seiEffect s) := (touches_memRead h s).trans (.cpu _ _)

theorem touches_cliEffect : TouchesCpuSide s (cliEffect s) := (touches_memRead h s).trans (.cpu _ _)

theorem touches_load (imm : Byte) : TouchesCpuSide s (loadImmediate (fetchByte s).2 imm) :=
  (touches_fetchByte h).trans (.cpu _ _)

theorem touches_jump (addr : Addr) : TouchesCpuSide s (setPc (memRead s s.cpu.pc).2 addr) :=
  (touches_memRead h s).trans (.cpu _ _)

end

/-! ## Where a timed read leaves `C.PC` (R160, R180) -/

theorem timed_fetch_pc (h : unstopped s = true) (next : Op) :
    (timed next (fun u => (fetchByte u).2) s).cpu.pc = s.cpu.pc + 1 := by
  rw [timed_eq _ _ h]
  simp

theorem timed_dummyRead_pc (h : unstopped s = true) (next : Op) : (timed next dummyRead s).cpu.pc = s.cpu.pc := by
  rw [timed_eq _ _ h]
  simp

/-! ## Cycles that leave the rest to their dots (R102, R160) -/

/-- From s to t, n CPU cycles passed, and nothing but their dots touched what is not the CPU's side. -/
structure LeftToDots (n : Nat) (s t : State) : Prop where
  unstopped : unstopped t = true
  eq : ∃ c b m, t = withCpuSide (dots (3 * n) s) c b m (s.sched.cpuCycles + n)

theorem unstopped_withCpuSide (d : State) (c : Cpu) (b : BusUnit) (m : Memory) (k : Nat) :
    unstopped (withCpuSide d c b m k) = unstopped d := rfl

/-- The count and the completion of a cycle whose access touched the CPU's side alone. -/
theorem complete_withCpuSide (d : State) (c c' : Cpu) (b b' : BusUnit) (m m' : Memory) (k : Nat) (next : Op) :
    setOp (countCycle (withCpuSide (withCpuSide d c b m k) c' b' m' (withCpuSide d c b m k).sched.cpuCycles)) next =
      withCpuSide d { c' with op := next } b' m' (k + 1) := rfl

section
variable {n : Nat}

theorem LeftToDots.start (h : Machine.unstopped s = true) : LeftToDots 0 s s := ⟨h, _, _, _, rfl⟩

/-- One more cycle, whose access touches the CPU's side alone. -/
theorem LeftToDots.timed (h : LeftToDots n s t) {act : State → State}
    (ha : TouchesCpuSide (threeDots t) (act (threeDots t))) (next : Op) :
    LeftToDots (n + 1) s (timed next act t) := by
  obtain ⟨hu, c, b, m, rfl⟩ := h
  have hdots : threeDots (withCpuSide (dots (3 * n) s) c b m (s.sched.cpuCycles + n)) =
      withCpuSide (dots (3 * (n + 1)) s) c b m (s.sched.cpuCycles + n) := by
    rw [threeDots_eq, dots_withCpuSide, ← dots_add, Nat.mul_succ]
  have hu' := unstopped_threeDots hu
  rw [timed_eq next act hu]
  rw [hdots] at ha hu' ⊢
  obtain ⟨c', b', m', ha⟩ := ha
  rw [ha, complete_withCpuSide]
  rw [unstopped_withCpuSide] at hu'
  exact ⟨(unstopped_withCpuSide ..).trans hu', _, _, _, rfl⟩

/-- One more cycle, an opcode or operand fetch from RAM or PRG. -/
theorem LeftToDots.fetch (h : LeftToDots n s t) (hpc : placeable t.cpu.pc = true) (next : Op) :
    LeftToDots (n + 1) s (Machine.timed next (fun u => (fetchByte u).2) t) :=
  h.timed (touches_fetchByte (by simpa using hpc)) next

/-- One more cycle, whose byte at `C.PC` in RAM or PRG is discarded. -/
theorem LeftToDots.dummyRead (h : LeftToDots n s t) (hpc : placeable t.cpu.pc = true) (next : Op) :
    LeftToDots (n + 1) s (Machine.timed next Machine.dummyRead t) :=
  h.timed (touches_memRead (by simpa using hpc) _) next

theorem LeftToDots.enterInterrupt (h : LeftToDots n s t) {vector : Addr} (h1 : placeable vector = true)
    (h2 : placeable (vector + 1) = true) (brk : Bool) (op : Nat → Byte → Op) :
    LeftToDots (n + 5) s (enterInterrupt vector brk op t) := by
  have ha := touches_enterCycle h1 h2 brk
  exact ((((h.timed (ha 3 0 _) _).timed (ha 4 0 _) _).timed (ha 5 0 _) _).timed (ha 6 0 _) _).timed (ha 7 _ _) _

theorem LeftToDots.returnFromInterrupt (h : LeftToDots n s t) : LeftToDots (n + 3) s (returnFromInterrupt t) :=
  ((h.timed (touches_returnCycle 4 0 _) _).timed (touches_returnCycle 5 0 _) _).timed (touches_returnCycle 6 _ _) _

theorem LeftToDots.serviceInterrupt (h : LeftToDots n s t) (hpc : placeable t.cpu.pc = true) {vector : Addr}
    (h1 : placeable vector = true) (h2 : placeable (vector + 1) = true) (op : Nat → Byte → Op) :
    LeftToDots (n + 7) s (serviceInterrupt vector op t) := by
  have hfirst := h.dummyRead hpc (op 2 0)
  have hpc' : placeable (Machine.timed (op 2 0) Machine.dummyRead t).cpu.pc = true := by
    rw [timed_dummyRead_pc h.unstopped]
    exact hpc
  exact (hfirst.dummyRead hpc' (op 3 0)).enterInterrupt h1 h2 false op

/-- What the dots leave is all there is beside the CPU's side. -/
theorem LeftToDots.ppuSide (h : LeftToDots n s t) : ppuSideIs n s t ∧ tookCycles n s t ∧ t.prg = s.prg := by
  obtain ⟨-, c, b, m, rfl⟩ := h
  refine ⟨⟨rfl, rfl, rfl, rfl, rfl, rfl⟩, rfl, dots_prg _ s⟩

end

/-! ## The operations that write nothing but the stack (R165 to R184) -/

/-- The opcode fetch of an instruction in RAM or PRG. -/
theorem leftToDots_fetchOpcode (h : unstopped s = true) (hpc : placeable s.cpu.pc = true) (opcode : Byte) (n : Nat) :
    LeftToDots 1 s (fetchOpcode opcode n s) := (LeftToDots.start h).fetch hpc _

theorem fetchOpcode_pc (h : unstopped s = true) (opcode : Byte) (n : Nat) : (fetchOpcode opcode n s).cpu.pc = s.cpu.pc + 1 :=
  timed_fetch_pc h _

/-- After the opcode fetch `C.PC` is at the second byte. -/
theorem placeable_second (h : unstopped s = true) (hpc : placeable (s.cpu.pc + 1) = true) (opcode : Byte) (n : Nat) :
    placeable (fetchOpcode opcode n s).cpu.pc = true := by
  rw [fetchOpcode_pc h]
  exact hpc

/-- Each such operation, cycle by cycle. -/
theorem leftToDots_exec {i : Instr} {n k : Nat} (h : unstopped s = true) (hi : readingForm i = some (n, k))
    (hpc : inMemory s.cpu.pc k = true) : ∃ t, exec i s = .next t ∧ LeftToDots n s t := by
  have hirq1 : placeable Config.irqVector = true := by decide
  have hirq2 : placeable (Config.irqVector + 1) = true := by decide
  have hnmi1 : placeable Config.nmiVector = true := by decide
  have hnmi2 : placeable (Config.nmiVector + 1) = true := by decide
  cases i <;> cases hi
  all_goals
    simp only [inMemory, Bool.and_true, Bool.and_eq_true] at hpc
  case irqService => exact ⟨_, rfl, (LeftToDots.start h).serviceInterrupt hpc hirq1 hirq2 _⟩
  case nmiService => exact ⟨_, rfl, (LeftToDots.start h).serviceInterrupt hpc hnmi1 hnmi2 _⟩
  all_goals
    have hf := fun opcode n => leftToDots_fetchOpcode h hpc.1 opcode n
  case jmpAbs addr =>
    obtain ⟨-, h2, h3⟩ := hpc
    have hf2 := (hf 0x4C 3).fetch (placeable_second h h2 _ _) (.insn 0x4C [lowByte addr] 3 3)
    have hp3 : placeable (timed (.insn 0x4C [lowByte addr] 3 3) (fun u => (fetchByte u).2) (fetchOpcode 0x4C 3 s)).cpu.pc = true := by
      rw [timed_fetch_pc (hf 0x4C 3).unstopped, fetchOpcode_pc h]
      exact h3
    exact ⟨_, rfl, hf2.timed (touches_jump (by simpa using hp3) addr) _⟩
  all_goals
    have hp := fun opcode n => placeable_second h hpc.2 opcode n
  case brk => exact ⟨_, rfl, ((hf 0x00 7).fetch (hp _ _) _).enterInterrupt hirq1 hirq2 true _⟩
  case php => exact ⟨_, rfl, ((hf 0x08 3).dummyRead (hp _ _) _).timed (touches_phpEffect _) _⟩
  case plp =>
    exact ⟨_, rfl, (((hf 0x28 4).dummyRead (hp _ _) _).timed (touches_dummyStackRead _) _).timed (touches_plpEffect _) _⟩
  case rti => exact ⟨_, rfl, (((hf 0x40 6).dummyRead (hp _ _) _).timed (touches_dummyStackRead _) _).returnFromInterrupt⟩
  case cli => exact ⟨_, rfl, (hf 0x58 2).timed (touches_cliEffect (by simpa using hp 0x58 2)) _⟩
  case sei => exact ⟨_, rfl, (hf 0x78 2).timed (touches_seiEffect (by simpa using hp 0x78 2)) _⟩
  case ldaImm imm => exact ⟨_, rfl, (hf 0xA9 2).timed (touches_load (by simpa using hp 0xA9 2) imm) _⟩
  case nop => exact ⟨_, rfl, (hf 0xEA 2).dummyRead (hp _ _) _⟩

/-- Settles O47: every cycle of these operations touches the CPU's side alone. -/
theorem codeInMemoryLeavesThePpuToTheDots : Obligations.CodeInMemoryLeavesThePpuToTheDots := by
  unfold Obligations.CodeInMemoryLeavesThePpuToTheDots
  intro i n k s h hi hpc
  obtain ⟨t, ht, hleft⟩ := leftToDots_exec h hi hpc
  exact ⟨t, ht, hleft.ppuSide⟩

end Sys2Proof.Machine
end

section
/-! SUPPORT. How many dots are left to the end of a frame, at least and at most, and that every CPU cycle brings it three dots nearer
(R101, R104, R106); so every frame ends, as STEP as a whole and by the machine's own steps (R232; O50), and after a number of CPU cycles
that R110 states (O51). -/

namespace Sys2Proof.Machine

/-! ## Dots to the end of the frame (R101, R104, R106) -/

/-- P_STEP_END_POS is a dot of every frame: a position, and not the one the odd-frame skip drops (R101, R104; log 11). -/
structure EndInFrame (g : Settings) : Prop where
  line : g.stepEndLine < 262
  dot : g.stepEndDot < 341
  notSkipped : g.oddFrameSkip = true → ¬(g.stepEndLine = 261 ∧ g.stepEndDot = 340)

theorem EndInFrame.of_valid {g : Settings} (h : g.valid = true) : EndInFrame g := by
  simp only [Settings.valid, Bool.and_eq_true, decide_eq_true_eq, Bool.not_eq_true', Bool.and_eq_false_iff,
    beq_eq_false_iff_ne] at h
  obtain ⟨⟨⟨-, hl⟩, hd⟩, hskip⟩ := h
  refine ⟨hl, hd, fun ho hend => ?_⟩
  rcases hskip with (hs | hs) | hs
  · simp [ho] at hs
  · exact hs hend.1
  · exact hs hend.2

/-- A position of the frame (R29). -/
structure InFrame (t : Scheduler) : Prop where
  line : t.line < 262
  dot : t.dot < 341

/-- A position as a number of dots from (0, 0). -/
def dotNumber (line dot : Nat) : Nat := 341 * line + dot

/-- The dots up to and with P_STEP_END_POS, where none is skipped. -/
def mostDots (g : Settings) (t : Scheduler) : Nat :=
  if dotNumber t.line t.dot ≤ dotNumber g.stepEndLine g.stepEndDot then
    dotNumber g.stepEndLine g.stepEndDot + 1 - dotNumber t.line t.dot
  else 89342 - dotNumber t.line t.dot + (dotNumber g.stepEndLine g.stepEndDot + 1)

/-- The same where the odd-frame skip drops a dot, as it can on an odd frame with its line 261 still to end. -/
def leastDots (g : Settings) (t : Scheduler) : Nat :=
  if dotNumber t.line t.dot ≤ dotNumber g.stepEndLine g.stepEndDot then mostDots g t
  else if t.oddFrame then mostDots g t - 1 else mostDots g t

/-- n dots from t to u, and the frame's end is not reached but n dots nearer. -/
structure GoesOn (g : Settings) (n : Nat) (t u : Scheduler) : Prop where
  inFrame : InFrame u
  notDone : u.frameDone = false
  least : leastDots g t ≤ leastDots g u + n
  most : mostDots g u + n ≤ mostDots g t

/-- n dots from t to u, and the frame ended in the last three of them, `past` dots ago. -/
structure Ends (g : Settings) (n past : Nat) (t u : Scheduler) : Prop where
  done : u.frameDone = true
  past_le : past ≤ 2
  least : leastDots g t + past ≤ n
  most : n ≤ mostDots g t + past
  position : g.stepEndDot ≤ 336 → u.line = g.stepEndLine ∧ u.dot = g.stepEndDot + 1 + past

section
variable {g : Settings} {t u v : Scheduler} {m n past : Nat}

theorem GoesOn.trans (h1 : GoesOn g m t u) (h2 : GoesOn g n u v) : GoesOn g (m + n) t v :=
  ⟨h2.inFrame, h2.notDone, by have := h1.least; have := h2.least; omega, by have := h1.most; have := h2.most; omega⟩

theorem GoesOn.ends (h1 : GoesOn g m t u) (h2 : Ends g n past u v) : Ends g (m + n) past t v :=
  ⟨h2.done, h2.past_le, by have := h1.least; have := h2.least; omega, by have := h1.most; have := h2.most; omega, h2.position⟩

theorem mostDots_pos (g : Settings) (t : Scheduler) : 1 ≤ mostDots g t := by
  unfold mostDots
  split <;> omega

/-- At most one dot is skipped (R104). -/
theorem mostDots_le_leastDots (g : Settings) (t : Scheduler) : mostDots g t ≤ leastDots g t + 1 := by
  unfold leastDots
  (repeat' split) <;> omega

/-- A whole frame is the most (R110). -/
theorem mostDots_le (hg : EndInFrame g) (ht : InFrame t) : mostDots g t ≤ 89342 := by
  have := hg.line; have := hg.dot; have := ht.line; have := ht.dot
  unfold mostDots dotNumber
  split <;> omega

/-! ## One dot -/

/-- Where a dot that does not wrap leaves the position. -/
theorem schedAfterDot_inLine (g : Settings) (r : Bool) (h : t.dot < 339) :
    (schedAfterDot g r t).line = t.line ∧ (schedAfterDot g r t).dot = t.dot + 1 := by
  have hw : wraps (maySkip g r) t = false := by
    have h1 : t.dot ≠ 339 := by omega
    have h2 : t.dot ≠ 340 := by omega
    simp [wraps, h1, h2]
  have h2 : t.dot ≠ 340 := by omega
  simp [schedAfterDot, hw, h2]

theorem schedAfterDots_inLine (g : Settings) (r : Bool) (n : Nat) (h : t.dot + n ≤ 339) :
    (schedAfterDots g r n t).line = t.line ∧ (schedAfterDots g r n t).dot = t.dot + n := by
  induction n generalizing t with
  | zero => exact ⟨rfl, rfl⟩
  | succ n ih =>
    obtain ⟨hl, hd⟩ := schedAfterDot_inLine (t := t) g r (by omega)
    obtain ⟨ihl, ihd⟩ := ih (t := schedAfterDot g r t) (by omega)
    exact ⟨ihl.trans hl, by rw [schedAfterDots, ihd, hd]; omega⟩

theorem schedAfterDots_done (g : Settings) (r : Bool) (n : Nat) (h : t.frameDone = true) :
    (schedAfterDots g r n t).frameDone = true := by
  induction n generalizing t with
  | zero => exact h
  | succ n ih => exact ih (by simp [schedAfterDot, h])

/-- The dot at P_STEP_END_POS is the last of the frame. -/
theorem dots_at_end (hl : t.line = g.stepEndLine) (hd : t.dot = g.stepEndDot) : leastDots g t = 1 ∧ mostDots g t = 1 := by
  simp [leastDots, mostDots, dotNumber, hl, hd]

/-- A dot goes to the next one of its line or of the next line, wraps at the last dot, or skips that (R104, R105). -/
theorem schedAfterDot_cases (r : Bool) (ht : InFrame t) (hu : schedAfterDot g r t = u) :
    (dotNumber t.line t.dot < 89341 ∧ dotNumber u.line u.dot = dotNumber t.line t.dot + 1 ∧ u.oddFrame = t.oddFrame) ∨
    (dotNumber t.line t.dot = 89341 ∧ dotNumber u.line u.dot = 0) ∨
    (dotNumber t.line t.dot = 89340 ∧ dotNumber u.line u.dot = 0 ∧ t.oddFrame = true ∧ g.oddFrameSkip = true) := by
  obtain ⟨hl, hd⟩ := ht
  subst hu
  cases hw : wraps (maySkip g r) t
  · left
    have hlast : ¬(t.line = 261 ∧ t.dot = 340) := fun h => by simp [wraps, h] at hw
    by_cases h340 : t.dot = 340
    · simp [schedAfterDot, hw, h340, dotNumber]
      omega
    · simp [schedAfterDot, hw, h340, dotNumber]
      omega
  · right
    have hu : dotNumber (schedAfterDot g r t).line (schedAfterDot g r t).dot = 0 := by simp [schedAfterDot, hw, dotNumber]
    simp only [wraps, maySkip, Bool.or_eq_true, decide_eq_true_eq, Bool.and_eq_true] at hw
    rcases hw with ⟨h1, h2⟩ | ⟨⟨⟨h1, h2⟩, hodd⟩, -, hskip⟩
    · exact .inl ⟨by simp [dotNumber, h1, h2], hu⟩
    · exact .inr ⟨by simp [dotNumber, h1, h2], hu, hodd, hskip⟩

theorem schedAfterDot_inFrame (g : Settings) (r : Bool) (ht : InFrame t) : InFrame (schedAfterDot g r t) := by
  obtain ⟨hl, hd⟩ := ht
  unfold schedAfterDot
  cases hw : wraps (maySkip g r) t
  · have hlast : ¬(t.line = 261 ∧ t.dot = 340) := fun h => by simp [wraps, h] at hw
    by_cases h340 : t.dot = 340
    · exact ⟨by simp [h340]; omega, by simp [h340]⟩
    · exact ⟨by simp [h340]; omega, by simp [h340]; omega⟩
  · exact ⟨by simp, by simp⟩

/-- Any other dot brings the end one dot nearer, or two where it skips one. -/
theorem goesOn_dot (hg : EndInFrame g) (r : Bool) (ht : InFrame t) (hdone : t.frameDone = false)
    (hne : ¬(t.line = g.stepEndLine ∧ t.dot = g.stepEndDot)) : GoesOn g 1 t (schedAfterDot g r t) := by
  have hlast : g.oddFrameSkip = true → dotNumber g.stepEndLine g.stepEndDot < 89341 := fun hs => by
    have := hg.notSkipped hs; have := hg.line; have := hg.dot
    unfold dotNumber
    omega
  have hend : dotNumber g.stepEndLine g.stepEndDot < 89342 := by
    have := hg.line; have := hg.dot
    unfold dotNumber
    omega
  have hother : dotNumber t.line t.dot ≠ dotNumber g.stepEndLine g.stepEndDot := by
    have := hg.dot; have := ht.dot
    unfold dotNumber
    omega
  have hdone' : (schedAfterDot g r t).frameDone = false := by simpa [schedAfterDot, hdone] using hne
  generalize hu : schedAfterDot g r t = u at hdone' ⊢
  have hmove := schedAfterDot_cases r ht hu
  refine ⟨hu ▸ schedAfterDot_inFrame g r ht, hdone', ?least, ?most⟩
  all_goals
    simp only [leastDots, mostDots]
    generalize dotNumber g.stepEndLine g.stepEndDot = e at *
    generalize dotNumber t.line t.dot = p at *
    generalize dotNumber u.line u.dot = q at *
  case least =>
    rcases hmove with ⟨hp, rfl, hodd⟩ | ⟨rfl, rfl⟩ | ⟨rfl, rfl, hodd, hskip⟩
    · rw [hodd]
      split_ifs <;> omega
    · split_ifs <;> omega
    · have := hlast hskip
      rw [if_pos hodd]
      split_ifs <;> omega
  case most =>
    rcases hmove with ⟨hp, rfl, -⟩ | ⟨rfl, rfl⟩ | ⟨rfl, rfl, -, hskip⟩
    · split_ifs <;> omega
    · split_ifs <;> omega
    · have := hlast hskip
      split_ifs <;> omega

/-! ## The three dots of a CPU cycle (R102) -/

theorem schedAfterDots_frame (hg : EndInFrame g) (r : Bool) (hn : n ≤ 3) (ht : InFrame t) (hdone : t.frameDone = false) :
    GoesOn g n t (schedAfterDots g r n t) ∨ ∃ past, Ends g n past t (schedAfterDots g r n t) := by
  induction n generalizing t with
  | zero => exact .inl ⟨ht, hdone, Nat.le_refl _, Nat.le_refl _⟩
  | succ n ih =>
    by_cases hend : t.line = g.stepEndLine ∧ t.dot = g.stepEndDot
    · obtain ⟨hleast, hmost⟩ := dots_at_end hend.1 hend.2
      refine .inr ⟨n, schedAfterDots_done g r n (by simp [schedAfterDot, hend]), by omega, by omega, by omega, fun h336 => ?_⟩
      obtain ⟨hl, hd⟩ := schedAfterDot_inLine (t := t) g r (by omega)
      obtain ⟨hl', hd'⟩ := schedAfterDots_inLine (t := schedAfterDot g r t) g r n (by omega)
      exact ⟨by rw [schedAfterDots, hl', hl, hend.1], by rw [schedAfterDots, hd', hd, hend.2]⟩
    · have hdot := goesOn_dot hg r ht hdone hend
      rw [schedAfterDots, Nat.add_comm n 1]
      rcases ih (by omega) hdot.inFrame hdot.notDone with hon | ⟨past, hends⟩
      · exact .inl (hdot.trans hon)
      · exact .inr ⟨past, hdot.ends hends⟩

end

/-! ## What a CPU cycle does to the frame (R102, R190, R250) -/

/-- A fault at a PPU address too wide, as only a full PPU on 16 lines drives it (R94, R250; log 9). -/
def AddressTooWide (s t : State) : Prop :=
  s.ext.fullPpu = true ∧ s.ext.widePpu = true ∧
    ∃ w l d, t.host.fault = some (.ppuAddrWidth w l d) ∧ t.host.reply = .fault (.ppuAddrWidth w l d)

/-- A refused opcode fetch, as only a machine without `cpu_exec` has it (R190). -/
def OpcodeRefused (s t : State) : Prop :=
  s.ext.cpuExec = false ∧
    ∃ a op, t.host.fault = some (.unmodelledOpcode a op) ∧ t.host.reply = .refused (.unmodelledOpcode a op)

/-- What ends a frame before its last dot. -/
def FrameStopped (s t : State) : Prop := OpcodeRefused s t ∨ AddressTooWide s t

variable {s t u : State}

theorem FrameStopped.halted (h : FrameStopped s t) : halted t = true := by
  rcases h with ⟨-, a, op, hf, -⟩ | ⟨-, -, w, l, d, hf, -⟩ <;> simp [Machine.halted, hf]

/-- Which collaborators there are does not change on the way (R41). -/
theorem FrameStopped.of_later (hp : sameParameters s t) (h : FrameStopped t u) : FrameStopped s u := by
  obtain ⟨-, -, hx, hfull, hwide, -⟩ := hp
  rcases h with ⟨h1, h2⟩ | ⟨h1, h2, h3⟩
  · exact .inl ⟨hx ▸ h1, h2⟩
  · exact .inr ⟨hfull ▸ h1, hwide ▸ h2, h3⟩

/-- With `cpu_exec` and a PPU of 14 address lines nothing ends a frame before its last dot. -/
theorem FrameStopped.not_unstopped (h : FrameStopped s t) (hx : s.ext.cpuExec = true) : unstopped s = false := by
  rcases h with ⟨h1, -⟩ | ⟨h1, h2, -⟩
  · simp [hx] at h1
  · simp [unstopped, h1, h2]

/-- Dots that nothing stops move the position; what stops them is a PPU address too wide. -/
theorem dots_outcome (n : Nat) (h : halted s = false) :
    (halted (dots n s) = false ∧ (dots n s).sched = schedAfterDots s.params (renderingEnabled s) n s.sched) ∨
      AddressTooWide s (dots n s) := by
  induction n generalizing s with
  | zero => exact .inl ⟨h, rfl⟩
  | succ n ih =>
    rw [dots]
    rcases ppuDot_cases s with ⟨hh, -⟩ | ⟨-, hw, e⟩ | ⟨-, hw, e⟩
    · simp [h] at hh
    · right
      have hhalted : halted (ppuDot s) = true := by rw [e]; rfl
      rw [dots_halted hhalted, e]
      cases hlines : s.ext.fullPpu && s.ext.widePpu
      · simp [currentWord_narrow s hlines] at hw
      · simp only [Bool.and_eq_true] at hlines
        exact ⟨hlines.1, hlines.2, _, _, _, rfl, rfl⟩
    · have hdot : (ppuDot s).sched = schedAfterDot s.params (renderingEnabled s) s.sched := by rw [e, wholeDot_sched]
      have hr : renderingEnabled (ppuDot s) = renderingEnabled s := by simp [renderingEnabled]
      have hrun : halted (ppuDot s) = false := by rw [e]; simpa [halted] using h
      rcases ih hrun with ⟨h1, h2⟩ | ⟨h1, h2, h3⟩
      · exact .inl ⟨h1, by rw [h2, hdot, hr, ppuDot_params]; rfl⟩
      · exact .inr ⟨by simpa using h1, by simpa using h2, h3⟩

/-- A CPU cycle moves the position by its three dots and counts, or ends the frame before its last dot. -/
theorem cpuCycle_outcome (h : halted s = false) :
    (halted (cpuCycle s) = false ∧ (cpuCycle s).sched = { schedAfterDots s.params (renderingEnabled s) 3 s.sched with
      cpuCycles := s.sched.cpuCycles + 1 }) ∨ FrameStopped s (cpuCycle s) := by
  obtain ⟨hh, hs, -⟩ := boundary_keeps (threeDots s)
  rcases cpuCycle_cases s with ⟨hd, e⟩ | ⟨hd, ⟨⟨kh, ks, -⟩, e⟩ | ⟨hx, -, hr, e⟩⟩
  · rcases dots_outcome 3 h with ⟨hrun, -⟩ | hwide
    · rw [threeDots_eq, hrun] at hd
      cases hd
    · rw [e]
      exact .inr (.inr hwide)
  · rcases dots_outcome 3 h with ⟨-, hsched⟩ | hwide
    · left
      constructor
      · rw [e]
        simpa [halted, kh, hh] using hd
      · rw [e, countCycle, setSched_sched, ks, hs, threeDots_sched_cpuCycles, threeDots_eq, hsched]
    · have := FrameStopped.halted (.inr hwide)
      rw [threeDots_eq, this] at hd
      cases hd
  · rw [e, hr]
    exact .inr (.inl ⟨hx, _, _, rfl, rfl⟩)

/-! ## What a frame leaves alone (R101, R107) -/

/-- The joypad byte, the STEP in progress and the stimuli waiting are the same. -/
structure SameStep (s t : State) : Prop where
  joypad : t.sched.joypad = s.sched.joypad
  inStep : t.host.inStep = s.host.inStep
  inbox : t.host.inbox = s.host.inbox

theorem SameStep.trans (h1 : SameStep s t) (h2 : SameStep t u) : SameStep s u :=
  ⟨h2.joypad.trans h1.joypad, h2.inStep.trans h1.inStep, h2.inbox.trans h1.inbox⟩

theorem cpuCycle_sameStep (s : State) : SameStep s (cpuCycle s) ∧ (cpuCycle s).sched.cpuCycles ≤ s.sched.cpuCycles + 1 := by
  obtain ⟨hh, hs, -⟩ := boundary_keeps (threeDots s)
  rcases cpuCycle_cases s with ⟨-, e⟩ | ⟨-, ⟨⟨kh, ks, -⟩, e⟩ | ⟨-, -, hr, e⟩⟩
  · rw [e]
    exact ⟨⟨by simp, by simp, by simp⟩, by simp⟩
  · rw [e]
    exact ⟨⟨by simp [ks, hs], by simp [kh, hh], by simp [kh, hh]⟩, by simp [ks, hs]⟩
  · rw [e, hr]
    exact ⟨⟨by simp [refuseOpcode, raiseFault, hs], by simp [refuseOpcode, raiseFault, hh],
      by simp [refuseOpcode, raiseFault, hh]⟩, by simp [refuseOpcode, raiseFault, hs]⟩

theorem frameLoop_sameStep {k : Nat} (h : frameLoop k s = some t) : SameStep s t :=
  frameLoop_keeps SameStep (fun _ _ _ => .trans) (fun s => (cpuCycle_sameStep s).1) k s t h

theorem frameOperation_sameStep (s : State) : SameStep s (frameOperation s) :=
  runWhile_keeps SameStep (fun _ => ⟨rfl, rfl, rfl⟩) (fun _ _ _ => .trans) (fun s => (cpuCycle_sameStep s).1) _ _ s

/-- A frame counts no more cycles than its fuel. -/
theorem frameLoop_cpuCycles_le {k : Nat} (h : frameLoop k s = some t) : t.sched.cpuCycles ≤ s.sched.cpuCycles + k := by
  induction k generalizing s with
  | zero => cases h
  | succ k ih =>
    have hc := (cpuCycle_sameStep s).2
    unfold frameLoop at h
    split at h
    · cases h
      omega
    · have := ih h
      omega

/-! ## Every frame ends (R101, R106, R110) -/

/-- A frame that nothing stops took this many cycles, three dots each, and its last three reached its end. -/
def FrameRan (s t : State) : Prop :=
  halted t = false ∧ ∃ m past, t.sched.cpuCycles = s.sched.cpuCycles + m ∧ Ends s.params (3 * m) past s.sched t.sched

theorem frameLoop_completes {k : Nat} (hg : EndInFrame s.params) (hpos : InFrame s.sched) (hdone : s.sched.frameDone = false)
    (hrun : halted s = false) (hk : mostDots s.params s.sched ≤ 3 * k) :
    ∃ t, frameLoop k s = some t ∧ (FrameRan s t ∨ FrameStopped s t) := by
  induction k generalizing s with
  | zero =>
    have := mostDots_pos s.params s.sched
    omega
  | succ k ih =>
    rw [frameLoop]
    rcases cpuCycle_outcome hrun with ⟨hrun', hsched⟩ | hstop
    · rcases schedAfterDots_frame hg (renderingEnabled s) (Nat.le_refl 3) hpos hdone with hon | ⟨past, hends⟩
      · have hp := (stable_cpuCycle s).parameters
        have hon' : GoesOn s.params 3 s.sched (cpuCycle s).sched := by
          rw [hsched]
          exact ⟨⟨hon.inFrame.line, hon.inFrame.dot⟩, hon.notDone, hon.least, hon.most⟩
        have hq : (cpuCycle s).params = s.params := hp.2.1
        rw [if_neg (by simp [hon'.notDone, hrun'])]
        obtain ⟨t, ht, hout⟩ := ih (s := cpuCycle s) (hq ▸ hg) hon'.inFrame hon'.notDone hrun'
          (by have := hon'.most; rw [hq]; omega)
        refine ⟨t, ht, ?_⟩
        rcases hout with ⟨htrun, m, past, hm, hends⟩ | hstop
        · refine .inl ⟨htrun, m + 1, past, ?_, ?_⟩
          · rw [hm, hsched]
            simp only []
            omega
          · rw [hq] at hends
            have := hon'.ends hends
            rwa [Nat.mul_succ, Nat.add_comm]
        · exact .inr (.of_later hp hstop)
      · have hends' : Ends s.params 3 past s.sched (cpuCycle s).sched := by
          rw [hsched]
          exact ⟨hends.done, hends.past_le, hends.least, hends.most, hends.position⟩
        exact ⟨_, if_pos (by simp [hends'.done]), .inl ⟨hrun', 1, past, by rw [hsched], hends'⟩⟩
    · exact ⟨_, if_pos (by simp [hstop.halted]), .inr hstop⟩

/-! ## STEP (R232) -/

theorem commandGate_running (c : CommandName) (hc : s.host.closed = false) (hr : s.host.resetDone = true)
    (hf : s.host.fault = none) : commandGate c s = none := by
  simp [commandGate, hc, hr, hf]

/-- In Running, STEP is the frame from its start, and its end. -/
theorem exec_hostStep {input : Nat} (hg : commandGate .step s = none) (ht : frameLoop frameCycles (startStep input s) = some t) :
    exec (.hostStep input) s = .next (finishStep t) := by
  change execHostStep input s = _
  simp [execHostStep, hg, ht]

/-- In any other condition it answers, and does nothing else. -/
theorem exec_hostStep_gated {input : Nat} {r : Reply} (hg : commandGate .step s = some r) :
    exec (.hostStep input) s = .next (answer s r) := by
  change execHostStep input s = _
  simp [execHostStep, hg]

theorem finishStep_sched (t : State) : (finishStep t).sched = t.sched := by
  unfold finishStep
  simp only []
  split <;> rfl

theorem finishStep_fault (t : State) : (finishStep t).host.fault = t.host.fault := by
  unfold finishStep
  simp only []
  split <;> rfl

/-- A frame that nothing stopped is copied and returned. -/
theorem finishStep_running (h : halted t = false) :
    (finishStep t).host = { t.host with inStep := false, frame := t.host.fb, reply := .frame t.host.fb } := by
  have h' : halted (setHost t { t.host with inStep := false }) = false := h
  simp [finishStep, h', answer]

/-- A fault or refusal leaves the frame as it was. -/
theorem finishStep_halted (h : halted t = true) : (finishStep t).host = { t.host with inStep := false } := by
  have h' : halted (setHost t { t.host with inStep := false }) = true := h
  simp [finishStep, h']

/-- The start of a STEP moves no position. -/
theorem FrameRan.of_startStep {input : Nat} (h : FrameRan (startStep input s) t) : FrameRan s t := by
  obtain ⟨hrun, m, past, hm, hends⟩ := h
  exact ⟨hrun, m, past, hm, hends.done, hends.past_le, hends.least, hends.most, hends.position⟩

/-- From every position of the frame STEP completes (R101, R106). -/
theorem hostStep_completes (input : Nat) (hg : commandGate .step s = none) (hend : EndInFrame s.params) (hpos : InFrame s.sched) :
    ∃ t, frameLoop frameCycles (startStep input s) = some t ∧ exec (.hostStep input) s = .next (finishStep t) ∧
      (FrameRan s t ∨ FrameStopped s t) := by
  obtain ⟨-, -, hf⟩ := commandGate_none hg
  have hrun : halted (startStep input s) = false := by simp [halted, startStep, hf]
  have hmost : mostDots s.params (startStep input s).sched ≤ 89342 := mostDots_le hend ⟨hpos.line, hpos.dot⟩
  obtain ⟨t, ht, hout⟩ := frameLoop_completes (k := frameCycles) (s := startStep input s) hend ⟨hpos.line, hpos.dot⟩ rfl hrun
    (Nat.le_trans hmost (by decide))
  exact ⟨t, ht, exec_hostStep hg ht, hout.imp .of_startStep (.of_later (startStep_sameParameters input s))⟩

/-! ## The same by the machine's own steps (log 2) -/

theorem steps_succ {n : Nat} (h : step s = .next t) : steps (n + 1) s = steps n t := by
  simp [steps, h]

theorem settle_ended (hs : s.host.inStep = true) (h : (s.sched.frameDone || halted s) = true) : settle s = finishStep s := by
  simp [settle, hs, h]

theorem settle_going (h : (s.sched.frameDone || halted s) = false) : settle s = s := by
  simp [settle, h]

/-- Inside a STEP with nothing waiting, the machine's steps reach the end of the frame and settle it. -/
theorem steps_of_frameLoop (k : Nat) (h : frameLoop k s = some t) (hs : s.host.inStep = true) (hb : s.host.inbox = []) :
    ∃ n, steps n s = some (finishStep t) := by
  induction k using Nat.strong_induction_on generalizing s with
  | _ k ih =>
    have hkeep := frameOperation_sameStep s
    have hs' : (frameOperation s).host.inStep = true := hkeep.inStep.trans hs
    have hstep := step_operation hs hb
    rcases frameOperation_cases k s t h with ⟨e, hend⟩ | ⟨hgo, j, hj, hloop⟩
    · rw [e] at hs' hstep
      rw [settle_ended hs' hend] at hstep
      exact ⟨1, steps_succ hstep⟩
    · rw [settle_going hgo] at hstep
      obtain ⟨n, hn⟩ := ih j hj hloop hs' (hkeep.inbox.trans hb)
      exact ⟨n + 1, (steps_succ hstep).trans hn⟩

/-- In Running, a STEP that waits outside one begins; s is the state with the command taken (R232). -/
theorem step_begins {input : Nat} {w : State} (hb : w.host.inbox = [.host (.step input)]) (hs : w.host.inStep = false)
    (hw : setHost w { w.host with inbox := [] } = s) (hg : commandGate .step s = none) :
    step w = .next (startStep input s) := by
  rw [step_outside hb hs rfl, hw, takeOutside_step, if_pos ((commandGate_isNone_iff .step s).1 (by rw [hg]; rfl))]

/-- Begun as the one waiting command, STEP reaches by steps what it reaches as a whole. -/
theorem steps_hostStep (input : Nat) (hg : commandGate .step s = none) (hs : s.host.inStep = false) (hb : s.host.inbox = [])
    (ht : frameLoop frameCycles (startStep input s) = some t) :
    ∃ n, steps n { s with host := { s.host with inbox := [.host (.step input)] } } = some (finishStep t) := by
  have hstep : step { s with host := { s.host with inbox := [.host (.step input)] } } = .next (startStep input s) :=
    step_begins rfl hs (by rw [← hb]; rfl) hg
  obtain ⟨n, hn⟩ := steps_of_frameLoop frameCycles ht rfl hb
  exact ⟨n + 1, (steps_succ hstep).trans hn⟩

/-- Settles O50: the frame ends because every cycle brings it three dots nearer; the steps of the machine cut the same run of cycles. -/
theorem stepRunsOneFrame : Obligations.StepRunsOneFrame := by
  unfold Obligations.StepRunsOneFrame
  intro input s
  refine ⟨fun hc => ?closed, fun hc hr => ?constructed, fun hc hr hf hl hd hv => ?running⟩
  case closed => exact exec_hostStep_gated (by simp [commandGate, hc])
  case constructed => exact exec_hostStep_gated (by simp [commandGate, hc, hr])
  case running =>
    have hgate := commandGate_running .step hc hr hf
    obtain ⟨t, ht, hexec, hout⟩ := hostStep_completes input hgate (.of_valid hv) ⟨by omega, by omega⟩
    have hcycles := frameLoop_cpuCycles_le ht
    have hframe := (frameLoop_keeps Stable (fun _ _ _ => .trans) stable_cpuCycle _ _ _ ht).frame
    refine ⟨finishStep t, hexec, ?joypad, finishStep_inStep t, ?cycles, fun hs hb => steps_hostStep input hgate hs hb ht, ?outcome⟩
    case joypad => rw [finishStep_sched, (frameLoop_sameStep ht).joypad]; simp [startStep]
    case cycles => rw [finishStep_sched]; exact hcycles
    case outcome =>
      rw [finishStep_fault, finishStep_sched]
      rcases hout with ⟨hrun, m, past, -, hends⟩ | ⟨hx, a, op, hfault, hreply⟩ | ⟨hfull, hwide, w, l, d, hfault, hreply⟩
      · have hpast := hends.past_le
        rw [finishStep_running hrun]
        refine .inl ⟨by simpa [halted] using hrun, hends.done, fun h => ?_, rfl, rfl⟩
        obtain ⟨hl, hd⟩ := hends.position h
        exact ⟨hl, by rw [hd]; exact Nat.le_add_right _ _, by rw [hd]; exact Nat.add_le_add_left hpast _⟩
      · rw [finishStep_halted (by simp [halted, hfault])]
        exact .inr (.inl ⟨hx, hframe, a, op, hfault, hreply⟩)
      · rw [finishStep_halted (by simp [halted, hfault])]
        exact .inr (.inr ⟨hfull, hwide, hframe, w, l, d, hfault, hreply⟩)

/-! ## How long a frame takes (R110) -/

/-- A STEP that nothing stops counts the dots left to the frame's end, in threes. -/
theorem hostStep_cycles (input : Nat) (hg : commandGate .step s = none) (hend : EndInFrame s.params) (hpos : InFrame s.sched) :
    ∃ t, exec (.hostStep input) s = .next t ∧ (s.ext.cpuExec = true → unstopped s = true → t.host.fault = none) ∧
      (t.host.fault = none → ∃ m past, t.sched.cpuCycles = s.sched.cpuCycles + m ∧ Ends s.params (3 * m) past s.sched t.sched) := by
  obtain ⟨t, -, hexec, hout⟩ := hostStep_completes input hg hend hpos
  refine ⟨finishStep t, hexec, ?_⟩
  rw [finishStep_fault, finishStep_sched]
  rcases hout with ⟨hrun, hran⟩ | hstop
  · exact ⟨fun _ _ => by simpa [halted] using hrun, fun _ => hran⟩
  · have hhalted := hstop.halted
    exact ⟨fun hx hu => by simp [hstop.not_unstopped hx] at hu, fun hf => by simp [halted, hf] at hhalted⟩

/-- Settles O51: from (261, 0) on an even frame 82524 dots are left and none is skipped; from where a STEP ended, 89340 to 89342, and one
may be skipped. -/
theorem framesTakeTheirCpuCycles : Obligations.FramesTakeTheirCpuCycles := by
  unfold Obligations.FramesTakeTheirCpuCycles
  intro input s hc hr hf hel hed
  have hend : EndInFrame s.params := ⟨by omega, by omega, fun _ => by omega⟩
  have hgate := commandGate_running .step hc hr hf
  refine ⟨fun hl hd ho => ?first, fun hl hd2 hd4 => ?later⟩
  case first =>
    obtain ⟨t, hexec, hnever, hran⟩ := hostStep_cycles input hgate hend ⟨by omega, by omega⟩
    refine ⟨t, hexec, hnever, fun hfault => ?_⟩
    obtain ⟨m, past, hm, -, hpast, hleast, hmost, hposition⟩ := hran hfault
    have hl0 : leastDots s.params s.sched = 82524 := by simp [leastDots, mostDots, dotNumber, hl, hd, hel, hed, ho]
    have hm0 : mostDots s.params s.sched = 82524 := by simp [mostDots, dotNumber, hl, hd, hel, hed]
    obtain ⟨hline, hdot⟩ := hposition (by omega)
    exact ⟨by omega, by omega, by omega⟩
  case later =>
    obtain ⟨t, hexec, hnever, hran⟩ := hostStep_cycles input hgate hend ⟨by omega, by omega⟩
    refine ⟨t, hexec, hnever, fun hfault => ?_⟩
    obtain ⟨m, past, hm, -, hpast, hleast, hmost, -⟩ := hran hfault
    have hm0 : mostDots s.params s.sched = 89344 - s.sched.dot := by
      unfold mostDots dotNumber
      rw [hl, hel, hed]
      split <;> omega
    have hl0 := mostDots_le_leastDots s.params s.sched
    omega

end Sys2Proof.Machine
end

section
/-! SUPPORT. The Mapper IRQ unit: its four register writes (R121 to R124; O6 to O9), any number of ticks in closed form (R128 to R131;
O10 to O12), and which commands assert its line or let it fall (R125, R127; O13, O14). -/

namespace Sys2Proof

/-- The addresses of an IRQ register, as a range and a parity (R84). -/
theorem selectsIrq_iff (lo hi : Nat) (odd : Bool) (a : Addr) :
    selectsIrq lo hi odd a = true ↔ lo ≤ a.toNat ∧ a.toNat ≤ hi ∧ a.toNat % 2 = odd.toNat := by
  cases odd <;> simp [selectsIrq, inRange, and_assoc]

/-- An even address from $E000 on is one that the mask of R84 gives to IRQ_DISABLE_ACK. -/
theorem irqMask_disableAck {a : Addr} (hlow : 0xE000 ≤ a.toNat) (heven : a.toNat % 2 = 0) : a &&& 0xE001 = 0xE000 := by
  have hlt := a.isLt
  have h15 : a.getLsbD 15 = true := by rw [addr_bit, decide_eq_true_eq]; omega
  have h14 : a.getLsbD 14 = true := by rw [addr_bit, decide_eq_true_eq]; omega
  have h13 : a.getLsbD 13 = true := by rw [addr_bit, decide_eq_true_eq]; omega
  have h0 : a.getLsbD 0 = false := by rw [addr_bit, decide_eq_false_iff_not]; omega
  refine BitVec.eq_of_getLsbD_eq fun i hi => ?_
  rw [BitVec.getLsbD_and]
  rcases Nat.eq_zero_or_pos i with rfl | hpos
  · simpa using h0
  · interval_cases i <;> simp [h15, h14, h13]

end Sys2Proof

namespace Sys2Proof.Machine

variable {s t : State}

/-! ## The register writes (R121 to R124) -/

/-- Settles O6: the mask gives the row its address, and the row's meaning is the latch write. -/
theorem latchWriteStoresTheByte : Obligations.LatchWriteStoresTheByte := by
  unfold Obligations.LatchWriteStoresTheByte
  intro a v s ha
  obtain ⟨hlatch, -⟩ := irqMask a
  obtain ⟨hlo, hhi, hparity⟩ := hlatch ha
  exact ⟨decodeStimulus_busInstr (r := .irqLatchW) ((selectsIrq_iff _ _ _ a).2 ⟨hlo, by omega, hparity⟩), rfl⟩

/-- Settles O7: the mask gives the row its address, and the row's meaning is the reload request. -/
theorem reloadWriteSetsTheRequest : Obligations.ReloadWriteSetsTheRequest := by
  unfold Obligations.ReloadWriteSetsTheRequest
  intro a v s ha
  obtain ⟨-, hreload, -⟩ := irqMask a
  obtain ⟨hlo, hhi, hparity⟩ := hreload ha
  exact ⟨decodeStimulus_busInstr (r := .irqReloadW) ((selectsIrq_iff _ _ _ a).2 ⟨hlo, by omega, hparity⟩), rfl⟩

/-- Settles O9: the mask gives the row its address, and the row's meaning is the enable. -/
theorem enableWriteAssertsNothing : Obligations.EnableWriteAssertsNothing := by
  unfold Obligations.EnableWriteAssertsNothing
  intro a v s ha
  obtain ⟨-, -, -, henable⟩ := irqMask a
  obtain ⟨hlo, hparity⟩ := henable ha
  exact ⟨decodeStimulus_busInstr (r := .irqEnableW) ((selectsIrq_iff _ _ _ a).2 ⟨hlo, by omega, hparity⟩), rfl⟩

/-! ## Any number of ticks (R128 to R131) -/

/-- The counter after a tick as a number: the latch, or one less and never below zero (R128). -/
theorem mapperTick_counter_toNat (m : Mapper) :
    (mapperTick m).counter.toNat = if m.reloadPending then m.latch.toNat else m.counter.toNat - 1 := by
  rw [mapperTick_counter]
  split
  · rfl
  · split
    · simp [*]
    · rename_i hne
      have hpos : 1 ≤ m.counter.toNat := Nat.pos_of_ne_zero fun h => hne (BitVec.eq_of_toNat_eq h)
      exact BitVec.toNat_sub_of_le hpos

/-- The line after a tick, with the counter as a number (R128). -/
theorem mapperTick_irqLine_toNat (m : Mapper) :
    (mapperTick m).irqLine = (m.irqLine || (decide ((mapperTick m).counter.toNat = 0) && m.enabled)) := by
  rw [mapperTick_irqLine, decide_eq_decide.2 (BitVec.toNat_inj (y := 0)).symm]
  rfl

/-- A tick changes the counter, the request and the line alone (R128). -/
theorem mapperTick_eq (m : Mapper) :
    mapperTick m = { m with counter := (mapperTick m).counter, reloadPending := false, irqLine := (mapperTick m).irqLine } := by
  rw [← mapperTick_latch m, ← mapperTick_reloadPending m, ← mapperTick_enabled m]

/-- Settles O10: the three fields that a tick changes, and the counter and the line it leaves. -/
theorem tickRule : Obligations.TickRule := by
  unfold Obligations.TickRule
  intro s
  exact ⟨tickState s, rfl, congrArg (setMapper s) (mapperTick_eq s.mapper), mapperTick_counter_toNat s.mapper,
    mapperTick_irqLine_toNat s.mapper⟩

/-- What n ticks count down from: with a reload pending the first tick sets the latch, one tick late (R130). -/
def countStart (n : Nat) (m : Mapper) : Nat := if m.reloadPending = true ∧ 0 < n then m.latch.toNat + 1 else m.counter.toNat

/-- The counter after n ticks (R128, R130). -/
theorem ticks_counter_toNat (n : Nat) (m : Mapper) : (ticks n m).counter.toNat = countStart n m - n := by
  unfold countStart
  induction n generalizing m with
  | zero => simp [ticks]
  | succ n ih =>
    rw [ticks, ih, mapperTick_reloadPending, mapperTick_counter_toNat]
    cases m.reloadPending
    · simp; omega
    · simp

/-- The first tick consumes the reload request (R128). -/
theorem ticks_reloadPending (n : Nat) (m : Mapper) : (ticks n m).reloadPending = (m.reloadPending && decide (n = 0)) := by
  cases n with
  | zero => simp [ticks]
  | succ n => simp [ticks_succ]

/-- A counter that ticks have brought to zero stays there (R128). -/
theorem ticks_counter_stays_zero {n : Nat} (hn : 0 < n) {m : Mapper} (h : (ticks n m).counter.toNat = 0) :
    (ticks (n + 1) m).counter.toNat = 0 := by
  rw [ticks_counter_toNat] at h ⊢
  simp only [countStart, hn, Nat.succ_pos, and_true] at h ⊢
  omega

/-- After n ticks the line is as before, or asserted where the counter has come to zero and the unit is enabled (R128, R130). -/
theorem ticks_irqLine (n : Nat) (m : Mapper) :
    (ticks n m).irqLine = (m.irqLine || (decide (0 < n ∧ (ticks n m).counter.toNat = 0) && m.enabled)) := by
  induction n with
  | zero => simp [ticks]
  | succ n ih =>
    have hstays : 0 < n ∧ (ticks n m).counter.toNat = 0 → (ticks (n + 1) m).counter.toNat = 0 :=
      fun ⟨hn, h⟩ => ticks_counter_stays_zero hn h
    rw [ticks_succ] at hstays ⊢
    rw [mapperTick_irqLine_toNat, ih, ticks_enabled]
    by_cases hzero : (mapperTick (ticks n m)).counter.toNat = 0
    · cases m.enabled <;> simp [hzero]
    · simp [hzero, mt hstays hzero]

/-- While the unit is disabled no number of ticks touches the line (R123, R131). -/
theorem ticks_irqLine_disabled (n : Nat) {m : Mapper} (h : m.enabled = false) : (ticks n m).irqLine = m.irqLine := by
  rw [ticks_irqLine, h, Bool.and_false, Bool.or_false]

/-- Settles O8: the mask gives the row its address, its meaning clears both bits, and ticks of a disabled unit leave the line. -/
theorem disableAckWriteClearsTheLine : Obligations.DisableAckWriteClearsTheLine := by
  unfold Obligations.DisableAckWriteClearsTheLine
  intro a v s ha
  obtain ⟨-, -, hack, -⟩ := irqMask a
  obtain ⟨hlo, hparity⟩ := hack ha
  exact ⟨_, decodeStimulus_busInstr (r := .irqDisableAckW) ((selectsIrq_iff _ _ _ a).2 ⟨hlo, by omega, hparity⟩), rfl, rfl,
    fun n => ticks_irqLine_disabled n rfl⟩

/-- From a reload request on, an enabled unit counts down from one above its latch, and its line is asserted where that ends (R130). -/
theorem ticks_of_reload {m : Mapper} (hr : m.reloadPending = true) (he : m.enabled = true) {k : Nat} (hk : 1 ≤ k)
    (hle : k ≤ m.latch.toNat + 1) :
    (ticks k m).counter.toNat = m.latch.toNat + 1 - k ∧
      (ticks k m).irqLine = (m.irqLine || decide (k = m.latch.toNat + 1)) := by
  have hcounter : (ticks k m).counter.toNat = m.latch.toNat + 1 - k := by
    rw [ticks_counter_toNat, countStart, if_pos ⟨hr, hk⟩]
  have hzero : 0 < k ∧ m.latch.toNat + 1 - k = 0 ↔ k = m.latch.toNat + 1 := by omega
  refine ⟨hcounter, ?_⟩
  rw [ticks_irqLine, hcounter, he, Bool.and_true, decide_eq_decide.2 hzero]

/-- Settles O11: the three writes leave an enabled unit with latch N and a reload request, and the line as it was. -/
theorem countingLaw : Obligations.CountingLaw := by
  unfold Obligations.CountingLaw
  intro n v w a b c s
  exact ⟨_, _, _, rfl, rfl, rfl, fun k hk hle => ticks_of_reload rfl rfl hk hle⟩

/-- Settles O12: the counter and the request after n ticks are closed forms in which the enable does not stand. -/
theorem countingIgnoresTheEnable : Obligations.CountingIgnoresTheEnable := by
  unfold Obligations.CountingIgnoresTheEnable
  intro n m e
  refine ⟨BitVec.eq_of_toNat_eq ?counter, ?request, ticks_irqLine_disabled n rfl⟩
  case counter =>
    rw [ticks_counter_toNat, ticks_counter_toNat]
    rfl
  case request => rw [ticks_reloadPending, ticks_reloadPending]

/-! ## The unit over the bus (R120, R125, R133) -/

/-- A host BUS_WRITE that does not act leaves the unit as it was; one that acts is a CPU write (R235). -/
theorem hostBusWrite_mapper {n k : Nat} (ht : execHostBusWrite n k s = .next t) :
    t.mapper = s.mapper ∨
      (n ≤ 0xFFFF ∧ k ≤ 0xFF ∧ t.mapper = (memWrite s (BitVec.ofNat 16 n) (BitVec.ofNat 8 k)).mapper) := by
  unfold execHostBusWrite at ht
  split at ht
  case h_1 => cases ht; exact .inl rfl
  case h_2 =>
    split at ht
    case isTrue => cases ht; exact .inl rfl
    case isFalse hn =>
      split at ht
      case isTrue => cases ht; exact .inl rfl
      case isFalse hk => cases ht; exact .inr ⟨Nat.not_lt.1 hn, Nat.not_lt.1 hk, rfl⟩

/-- A CPU write does not assert the line (R125). -/
theorem memWrite_irqLine_clear (h : s.mapper.irqLine = false) (a : Addr) (v : Byte) : (memWrite s a v).mapper.irqLine = false := by
  rw [memWrite_mapper]
  split
  · exact irqRegWrite_irqLine _ _ _ h
  · exact h

/-- Settles O13: a CPU write does not assert the line, a read leaves the unit, and BUS_WRITE is such a write or does not act. -/
theorem noBusAccessAssertsTheLine : Obligations.NoBusAccessAssertsTheLine := by
  unfold Obligations.NoBusAccessAssertsTheLine
  intro a v n k s t h
  refine ⟨memWrite_irqLine_clear h a v, by rw [memRead_mapper, h], fun ht => ?_⟩
  rcases hostBusWrite_mapper ht with hm | ⟨-, -, hm⟩
  · rw [hm, h]
  · rw [hm, memWrite_irqLine_clear h]

/-! ## An asserted line (R127) -/

/-- The Mapper IRQ unit asserts its line. -/
def LineAsserted (s : State) : Prop := s.mapper.irqLine = true

theorem LineAsserted.of_mapper_eq (h : LineAsserted s) (e : t.mapper = s.mapper) : LineAsserted t := by
  rw [LineAsserted, e]
  exact h

/-- Of the register writes only the acknowledge lets the line fall (R121 to R124). -/
theorem irqRegWrite_irqLine_kept (m : Mapper) {r : IrqReg} (hr : r ≠ .disableAck) (v : Byte) :
    (irqRegWrite m r v).irqLine = m.irqLine := by
  cases r with
  | disableAck => exact absurd rfl hr
  | latch | reload | enable => rfl

/-- An address that the mask does not give to IRQ_DISABLE_ACK does not select it (R84). -/
theorem irqRegOf_ne_disableAck {a : Addr} (h : 0xC000 ≤ a.toNat) (ha : a &&& 0xE001 ≠ 0xE000) : irqRegOf a ≠ .disableAck := by
  rw [irqRegOf_eq a h]
  split
  case isTrue hhigh => simp [mt (irqMask_disableAck hhigh) ha]
  case isFalse => split <;> simp

theorem LineAsserted.memWrite (h : LineAsserted s) {a : Addr} (ha : a &&& 0xE001 ≠ 0xE000) (v : Byte) :
    LineAsserted (memWrite s a v) := by
  unfold LineAsserted
  rw [memWrite_mapper]
  split
  case isTrue hhigh => exact (irqRegWrite_irqLine_kept _ (irqRegOf_ne_disableAck hhigh ha) v).trans h
  case isFalse => exact h

theorem LineAsserted.observe (h : LineAsserted s) (p : PAddr) (l : Nat) : LineAsserted (observe s p l) := by
  unfold LineAsserted
  rw [observe_mapper]
  split
  · rw [mapperTick_irqLine, h, Bool.true_or]
  · exact h

theorem LineAsserted.threeDots (h : LineAsserted s) : LineAsserted (threeDots s) :=
  ppuDot_irqLine _ (ppuDot_irqLine _ (ppuDot_irqLine _ h))

/-- A timed cycle keeps the line asserted if its action does (R102). -/
theorem LineAsserted.timedOf (h : LineAsserted s) {act : State → State} (hact : ∀ u, LineAsserted u → LineAsserted (act u))
    (next : Op) : LineAsserted (timed next act s) := by
  unfold timed unlessHalted
  split
  · exact h.threeDots
  · exact hact _ h.threeDots

/-- A quiet action leaves the unit as it was. -/
theorem quietAction_mapper {act : State → State} (hact : quietAction act) (s : State) : (act s).mapper = s.mapper := by
  obtain ⟨-, hm, -⟩ := hact s
  exact hm

/-- Quiet actions leave the unit to the dots. -/
theorem LineAsserted.timed (h : LineAsserted s) {act : State → State} (hact : quietAction act) (next : Op) :
    LineAsserted (timed next act s) :=
  h.timedOf (fun u hu => hu.of_mapper_eq (quietAction_mapper hact u)) next

theorem LineAsserted.fetchOpcode (h : LineAsserted s) (opcode : Byte) (n : Nat) : LineAsserted (fetchOpcode opcode n s) :=
  h.timed quiet_fetchByte _

theorem LineAsserted.enterInterrupt (h : LineAsserted s) (vector : Addr) (brk : Bool) (op : Nat → Byte → Op) :
    LineAsserted (enterInterrupt vector brk op s) :=
  have hk := fun k lo => quiet_enterCycle vector brk k lo
  ((((h.timed (hk 3 0) _).timed (hk 4 0) _).timed (hk 5 0) _).timed (hk 6 0) _).timed (hk 7 _) _

theorem LineAsserted.serviceInterrupt (h : LineAsserted s) (vector : Addr) (op : Nat → Byte → Op) :
    LineAsserted (serviceInterrupt vector op s) :=
  ((h.timed quiet_dummyRead _).timed quiet_dummyRead _).enterInterrupt vector false op

theorem LineAsserted.returnFromInterrupt (h : LineAsserted s) : LineAsserted (returnFromInterrupt s) :=
  ((h.timed (quiet_returnCycle 4 0) _).timed (quiet_returnCycle 5 0) _).timed (quiet_returnCycle 6 _) _

/-! ### The outcome of a command -/

/-- If an outcome is a next state, the line is asserted there. -/
def lineNext (r : Result) : Prop := ∀ t, r = .next t → LineAsserted t

theorem lineNext_next (h : LineAsserted t) : lineNext (.next t) := fun _ e => by cases e; exact h

theorem lineNext_busReadFrom {target : State → Option Byte × State} (h : LineAsserted s) (ht : (target s).2.mapper = s.mapper) :
    lineNext (busReadFrom target s) :=
  lineNext_next (h.of_mapper_eq ((congrArg State.mapper (finishRead_state (target s))).trans ht))

theorem ppuTargetRead_mapper (s : State) (a : Addr) : (ppuTargetRead s a).2.mapper = s.mapper := by
  unfold ppuTargetRead ppuStatusRead
  split <;> simp

theorem ppuTargetWrite_mapper (s : State) (a : Addr) (v : Byte) : (ppuTargetWrite s a v).mapper = s.mapper := by
  unfold ppuTargetWrite
  (repeat' split) <;> simp

theorem apuTargetWrite_mapper (s : State) (a : Addr) (v : Byte) : (apuTargetWrite s a v).mapper = s.mapper := by
  unfold apuTargetWrite
  split <;> simp

/-- No bus row but IRQ_DISABLE_ACK_W lets the line fall (R88, R127). -/
theorem lineNext_exec_busInstr (h : LineAsserted s) {r : BusRow} (hr : r ≠ .irqDisableAckW) (a : Addr) (v : Byte) :
    lineNext (exec (busInstr r a v) s) := by
  cases r with
  | irqDisableAckW => exact absurd rfl hr
  | irqLatchW | irqReloadW | irqEnableW => exact lineNext_next h
  | bankW => exact lineNext_next (h.of_mapper_eq (bankWrite_mapper _ a v))
  | ramW => exact lineNext_next h
  | ppuRegW => exact lineNext_next (h.of_mapper_eq (ppuTargetWrite_mapper _ a v))
  | apuIoW => exact lineNext_next (h.of_mapper_eq (apuTargetWrite_mapper _ a v))
  | cartLowW => exact lineNext_next (h.of_mapper_eq (cartLowWrite_mapper _ a v))
  | cartPrgR => exact lineNext_busReadFrom (target := fun t => (some (prgRead t a), t)) h rfl
  | ramR => exact lineNext_busReadFrom (target := fun t => (some (ramLoad t a), t)) h rfl
  | ppuRegR => exact lineNext_busReadFrom (target := fun t => ppuTargetRead t a) h (ppuTargetRead_mapper s a)
  | apuIoR => exact lineNext_busReadFrom (target := fun t => apuIoRead t a) h (apuIoRead_mapper s a)
  | cartLowR => exact lineNext_busReadFrom (target := fun t => cartLowRead t a) h (cartLowRead_mapper s a)

/-- Every class of a PPU address ticks the unit or leaves it (R200). -/
theorem lineNext_exec_ppuaInstr (h : LineAsserted s) (r : PpuaRow) (p : PAddr) : lineNext (exec (ppuaInstr r p) s) := by
  rw [exec_ppuaInstr]
  exact lineNext_next (h.observe p _)

/-- BUS_WRITE keeps the line asserted, unless it acts and its address selects IRQ_DISABLE_ACK (R235). -/
theorem lineNext_hostBusWrite (h : LineAsserted s) {n k : Nat} (hn : neverAcknowledges (.hostBusWrite n k) = true) :
    lineNext (execHostBusWrite n k s) := by
  intro t ht
  rcases hostBusWrite_mapper ht with hm | ⟨haddr, hvalue, hm⟩
  · exact h.of_mapper_eq hm
  · have ha : BitVec.ofNat 16 n &&& 0xE001 ≠ 0xE000 := by
      unfold neverAcknowledges at hn
      simpa [haddr, hvalue] using hn
    exact (h.memWrite ha _).of_mapper_eq hm

theorem lineNext_hostReadFrame (h : LineAsserted s) : lineNext (execHostReadFrame s) := by
  unfold execHostReadFrame
  split <;> exact lineNext_next h

/-- A command that cannot acknowledge keeps the line asserted. -/
theorem lineNext_exec {i : Instr} (hi : neverAcknowledges i = true) (h : LineAsserted s) : lineNext (exec i s) := by
  have bus := fun {r} hr a v => lineNext_exec_busInstr h (r := r) hr a v
  have ppua := lineNext_exec_ppuaInstr h
  have fetched := h.fetchOpcode
  cases i with
  | irqLatchW a v => exact bus (r := .irqLatchW) nofun a v
  | irqReloadW a v => exact bus (r := .irqReloadW) nofun a v
  | irqEnableW a v => exact bus (r := .irqEnableW) nofun a v
  | bankW a v => exact bus (r := .bankW) nofun a v
  | cartPrgR a => exact bus (r := .cartPrgR) nofun a 0
  | ramR a => exact bus (r := .ramR) nofun a 0
  | ramW a v => exact bus (r := .ramW) nofun a v
  | ppuRegR a => exact bus (r := .ppuRegR) nofun a 0
  | ppuRegW a v => exact bus (r := .ppuRegW) nofun a v
  | apuIoR a => exact bus (r := .apuIoR) nofun a 0
  | apuIoW a v => exact bus (r := .apuIoW) nofun a v
  | cartLowR a => exact bus (r := .cartLowR) nofun a 0
  | cartLowW a v => exact bus (r := .cartLowW) nofun a v
  | ppuaPattern0 p => exact ppua .pattern0 p
  | ppuaPattern1 p => exact ppua .pattern1 p
  | ppuaNametable p => exact ppua .nametable p
  | ppuaPalette p => exact ppua .palette p
  | ppuaNtMirror p => exact ppua .ntMirror p
  | ppuDot => exact lineNext_next (ppuDot_irqLine s h)
  | tick => exact lineNext_next ((mapperTick_irqLine s.mapper).trans (by rw [h, Bool.true_or]))
  | boundary =>
    obtain ⟨-, -, -, hm, -⟩ := boundary_keeps s
    exact lineNext_next (h.of_mapper_eq hm)
  | irqService => exact lineNext_next (h.serviceInterrupt _ _)
  | nmiService => exact lineNext_next (h.serviceInterrupt _ _)
  | nmiEdge => exact lineNext_next h
  | frameEnd => exact lineNext_next h
  | hostBusWrite n k => exact lineNext_hostBusWrite h hi
  | hostReadFrame => exact lineNext_hostReadFrame h
  | hostClose => exact lineNext_next h
  | brk pad => exact lineNext_next (((fetched _ _).timed quiet_fetchByte _).enterInterrupt _ _ _)
  | php => exact lineNext_next (((fetched _ _).timed quiet_dummyRead _).timed quiet_php _)
  | plp => exact lineNext_next ((((fetched _ _).timed quiet_dummyRead _).timed quiet_dummyStackRead _).timed quiet_plp _)
  | rti => exact lineNext_next (((fetched _ _).timed quiet_dummyRead _).timed quiet_dummyStackRead _).returnFromInterrupt
  | cli => exact lineNext_next ((fetched _ _).timed quiet_cli _)
  | sei => exact lineNext_next ((fetched _ _).timed quiet_sei _)
  | ldaImm imm => exact lineNext_next ((fetched _ _).timed (quiet_load imm) _)
  | staAbs a =>
    have ha : a &&& 0xE001 ≠ 0xE000 := by
      unfold neverAcknowledges at hi
      simpa using hi
    exact lineNext_next ((((fetched _ _).timed quiet_fetchByte _).timed quiet_fetchByte _).timedOf
      (fun u hu => hu.memWrite ha u.cpu.a) _)
  | nop => exact lineNext_next ((fetched _ _).timed quiet_dummyRead _)
  | jmpAbs a => exact lineNext_next (((fetched _ _).timed quiet_fetchByte _).timed (quiet_jmp a) _)
  | irqDisableAckW _ _ | cpuCycle | hostReset | hostStep _ | unmodelledOpcode _ => contradiction

/-- Settles O14: command by command, as dots, quiet actions, and writes that do not select IRQ_DISABLE_ACK. -/
theorem theLineFallsOnlyOnAcknowledge : Obligations.TheLineFallsOnlyOnAcknowledge := by
  unfold Obligations.TheLineFallsOnlyOnAcknowledge
  exact fun _ s t hi h ht => lineNext_exec hi h t ht

end Sys2Proof.Machine
end

section
/-! SUPPORT. The bus targets below the cartridge: the RAM and its mirrors (R54, R141; O15), the PPU registers (R142, R221 to R223; O16,
O17) and the APU/IO window (R143; O18). -/

namespace Sys2Proof.Machine

variable {s : State}

/-! ## The RAM and its mirrors (R54, R141) -/

/-- A RAM write shows at every mirror of its byte and at no other. -/
theorem ramLoad_ramStore (h : Memory.wf 0 2048 s.ram = true) (a b : Addr) (v : Byte) :
    ramLoad (ramStore s a v) b = if ramIndex b = ramIndex a then v else ramLoad s b := by
  change sparseRead (sparseWrite s.ram (ramIndex a) v) (ramIndex b) = _
  split
  case isTrue hmirror => rw [hmirror, sparseRead_write_same s.ram 2048 0 _ v h]
  case isFalse hother => exact sparseRead_write_other s.ram _ _ v hother

/-- Settles O15: each row is the RAM target's one call; the write shows at the mirrors alone, and the latch is no part of the RAM. -/
theorem ramWriteThenRead : Obligations.RamWriteThenRead := by
  unfold Obligations.RamWriteThenRead
  intro a v s h _
  exact ⟨ramStore (setOpenBus s v) a v, rfl, rfl, rfl, fun b => ramLoad_ramStore (s := setOpenBus s v) h a b v⟩

/-! ## The PPU registers (R142, R221 to R223) -/

theorem ppuIndex_eq_ofNat (a : Addr) : ppuIndex a = BitVec.ofNat 3 (a.toNat % 8) :=
  BitVec.eq_of_toNat_eq (by simp [ppuIndex])

/-- The register that an address selects, by addr AND 7 (R55). -/
theorem ppuIndex_eq_iff (a : Addr) (r : BitVec 3) : ppuIndex a = r ↔ a.toNat % 8 = r.toNat := by
  rw [← BitVec.toNat_inj]
  simp [ppuIndex]

theorem ppuRegWrite_eq (s : State) (r : BitVec 3) (v : Byte) : ppuRegWrite s r v =
    setExt s (if s.ext.fullPpu then { s.ext with ppuSt := Config.ppuRegWrite s.ext.ppuSt r v } else s.ext) := by
  unfold ppuRegWrite
  split <;> rfl

/-- A register write: the external PPU's, and the stub keeps ctrl or mask. -/
theorem ppuTargetWrite_eq (s : State) (a : Addr) (v : Byte) : ppuTargetWrite s a v =
    { ppuRegWrite s (BitVec.ofNat 3 (a.toNat % 8)) v with
      ppu := if a.toNat % 8 = 0 then { s.ppu with ctrl := v }
             else if a.toNat % 8 = 1 then { s.ppu with mask := v }
             else s.ppu } := by
  have hctrl : ppuIndex a = 0 ↔ a.toNat % 8 = 0 := ppuIndex_eq_iff a 0
  have hmask : ppuIndex a = 1 ↔ a.toNat % 8 = 1 := ppuIndex_eq_iff a 1
  rw [ppuTargetWrite, ← ppuIndex_eq_ofNat]
  simp only [ppuRegWrite_eq, ← hctrl, ← hmask]
  split
  case isTrue h0 => rw [h0]; rfl
  case isFalse =>
    split
    case isTrue h1 => rw [h1]; rfl
    case isFalse => rfl

/-- Settles O16: the write is the external PPU's, if any, and the stub's own, by register. -/
theorem ppuRegisterWrites : Obligations.PpuRegisterWrites := by
  unfold Obligations.PpuRegisterWrites
  intro a v s _ _
  refine congrArg Host.Outcome.next ((ppuTargetWrite_eq (setOpenBus s v) a v).trans ?_)
  rw [ppuRegWrite_eq]
  rfl

theorem ppuRegRead_absent (h : s.ext.fullPpu = false) (r : BitVec 3) : ppuRegRead s r = (none, s) := by
  simp [ppuRegRead, h]

theorem ppuRegRead_present (h : s.ext.fullPpu = true) (r : BitVec 3) : ppuRegRead s r =
    ((Config.ppuRegRead s.ext.ppuSt r).1, setExt s { s.ext with ppuSt := (Config.ppuRegRead s.ext.ppuSt r).2 }) := by
  simp [ppuRegRead, h]

theorem ppuStatusBits_absent (h : s.ext.fullPpu = false) : ppuStatusBits s = (0, s) := by
  simp [ppuStatusBits, h]

theorem ppuStatusBits_present (h : s.ext.fullPpu = true) : ppuStatusBits s =
    ((Config.ppuStatusBits s.ext.ppuSt).1, setExt s { s.ext with ppuSt := (Config.ppuStatusBits s.ext.ppuSt).2 }) := by
  simp [ppuStatusBits, h]

/-- The stub's status byte: bits 6 and 5 are 0 (R223). -/
theorem statusByte_zero (vblank : Bool) (openBus : Byte) :
    statusByte vblank 0 openBus = (if vblank then 0x80 else 0x00) ||| (openBus &&& 0x1F) := by
  simp [statusByte]

theorem ppuTargetRead_status {a : Addr} (h : a.toNat % 8 = 2) (s : State) :
    ppuTargetRead s a = (some (ppuStatusRead s).1, (ppuStatusRead s).2) :=
  if_pos ((ppuIndex_eq_iff a 2).2 h)

theorem ppuTargetRead_external {a : Addr} (h : a.toNat % 8 ≠ 2) (s : State) :
    ppuTargetRead s a = ppuRegRead s (BitVec.ofNat 3 (a.toNat % 8)) := by
  rw [← ppuIndex_eq_ofNat]
  exact if_neg (mt (ppuIndex_eq_iff a 2).1 h)

/-- Settles O17: register 2 is the stub's status read, with the bits of the PPU there is; another is the external PPU's, if any. -/
theorem ppuRegisterReads : Obligations.PpuRegisterReads := by
  unfold Obligations.PpuRegisterReads
  intro a s _ _
  refine ⟨(finishRead (ppuTargetRead s a)).2, rfl, fun hp hr => ?stubStatus, fun hp hr => ?undriven, fun hp hr => ?status,
    fun hp hr => ?external⟩
  case stubStatus =>
    rw [ppuTargetRead_status hr, ppuStatusRead, ppuStatusBits_absent hp, statusByte_zero]
    rfl
  case undriven =>
    rw [ppuTargetRead_external hr, ppuRegRead_absent hp]
    rfl
  case status =>
    rw [ppuTargetRead_status hr, ppuStatusRead, ppuStatusBits_present hp]
    rfl
  case external =>
    rw [ppuTargetRead_external hr, ppuRegRead_present hp, finishRead_state]
    rfl

/-! ## The APU/IO window (R143, R172) -/

theorem apuIoWrite_eq (s : State) (a : Addr) (v : Byte) : apuIoWrite s a v =
    setExt s (if s.ext.apuIo then { s.ext with apuSt := Config.apuIoWrite s.ext.apuSt a v } else s.ext) := by
  unfold apuIoWrite
  split <;> rfl

/-- A write in the window: the device's, and at $4014 the request for a DMA stall. -/
theorem apuTargetWrite_eq (s : State) (a : Addr) (v : Byte) : apuTargetWrite s a v =
    { apuIoWrite s a v with cpu := if a = 0x4014 then { s.cpu with dmaPending := some v } else s.cpu } := by
  unfold apuTargetWrite
  rw [apuIoWrite_eq]
  split <;> rfl

theorem apuIoRead_absent (h : s.ext.apuIo = false) (a : Addr) : apuIoRead s a = (none, s) := by
  simp [apuIoRead, h]

theorem apuIoRead_present (h : s.ext.apuIo = true) (a : Addr) : apuIoRead s a =
    ((Config.apuIoRead s.ext.apuSt a s.sched.joypad).1,
      setExt s { s.ext with apuSt := (Config.apuIoRead s.ext.apuSt a s.sched.joypad).2 }) := by
  simp [apuIoRead, h]

/-- Settles O18: the write is the device's and the DMA request, and the read the device's one call, present or absent. -/
theorem apuIoAccess : Obligations.ApuIoAccess := by
  unfold Obligations.ApuIoAccess
  intro a v s _ _
  refine ⟨?write, fun hd => ?absent, fun hd => ?present⟩
  case write =>
    refine congrArg Host.Outcome.next ((apuTargetWrite_eq (setOpenBus s v) a v).trans ?_)
    rw [apuIoWrite_eq]
    rfl
  case absent =>
    change Host.Outcome.next (finishRead (apuIoRead s a)).2 = _
    rw [apuIoRead_absent hd]
    rfl
  case present =>
    change Host.Outcome.next (finishRead (apuIoRead s a)).2 = _
    rw [apuIoRead_present hd, finishRead_state]
    rfl

end Sys2Proof.Machine
end

section
/-! SUPPORT. The CPU's operations as stretches of timed cycles: the registers, RAM and the frame after each, cycle by cycle, and from
them the service sequences and the ten instructions (R165 to R184; O34 to O44), and the NMI edge detector (R170; O27). -/

namespace Sys2Proof.Machine

variable {n : Nat} {s t : State} {c : Cpu} {m : Memory}

/-! ## The NMI edge detector (R170) -/

/-- Settles O27: the row is `nmi_sample()` itself, which writes the arbiter alone. -/
theorem nmiSampleKeepsARisingEdge : Obligations.NmiSampleKeepsARisingEdge := by
  unfold Obligations.NmiSampleKeepsARisingEdge
  exact fun _ => rfl

/-! ## Stretches of timed cycles (R100, R102) -/

/-- After n CPU cycles from s that wrote nothing but the stack: the CPU registers are c, RAM is m, and the rest keeps the frame. -/
structure After (n : Nat) (s : State) (c : Cpu) (m : Memory) (t : State) : Prop where
  start : unstopped s = true
  passes : passes n s t
  cpu : t.cpu = c
  ram : t.ram = m

theorem passes_zero (s : State) : passes 0 s s :=
  ⟨rfl, ⟨rfl, rfl, rfl, rfl, rfl, rfl, rfl, rfl⟩, ⟨rfl, rfl, rfl, rfl, rfl, rfl, rfl⟩, ⟨rfl, rfl, rfl, rfl, rfl, rfl, rfl, id⟩⟩

theorem After.zero (h : unstopped s = true) : After 0 s s.cpu s.ram s := ⟨h, passes_zero s, rfl, rfl⟩

theorem After.unstopped (h : After n s c m t) : Machine.unstopped t = true := passes_unstopped h.start h.passes

/-- The dots of the next cycle leave the registers and RAM. -/
theorem After.dots_cpu (h : After n s c m t) : (threeDots t).cpu = c := (threeDots_cpu t).trans h.cpu

theorem After.dots_ram (h : After n s c m t) : (threeDots t).ram = m := (threeDots_ram t).trans h.ram

/-- A PRG byte is as before: nothing has moved the banking. -/
theorem After.prgRead (h : After n s c m t) (a : Addr) : prgRead t a = prgRead s a := by
  obtain ⟨-, -, ⟨hprg, -, -, -, -, -, hcart⟩, -, -, -, -, -, hbank, -⟩ := h.passes
  exact prgRead_congr s t a hcart hbank hprg

/-- With RAM as it was, the next cycle reads the bytes of RAM and PRG that stood there at the start. -/
theorem After.dots_byteAt (h : After n s c s.ram t) (a : Addr) : byteAt (threeDots t) a = byteAt s a := by
  obtain ⟨-, -, ⟨hprg, -, -, -, -, -, hcart⟩, -, -, -, -, -, hbank, -⟩ := h.passes
  exact byteAt_congr s _ a (by simp [hcart]) (by simp [hbank]) (by simp [hprg]) h.dots_ram

section
variable (h : After n s c m t)
include h

/-- One more cycle, of a quiet action that leaves these registers and this RAM. -/
theorem After.timed {act : State → State} (hact : quietAction act) (next : Op) {c' : Cpu} {m' : Memory}
    (hc : (act (threeDots t)).cpu = c') (hm : (act (threeDots t)).ram = m') :
    After (n + 1) s { c' with op := next } m' (timed next act t) where
  start := h.start
  passes := passes_trans h.start h.passes (passes_timed hact next h.unstopped)
  cpu := by rw [timed_eq next act h.unstopped, ← hc]; rfl
  ram := by rw [timed_eq next act h.unstopped, ← hm]; rfl

/-- An opcode or operand fetch (R180). -/
theorem After.fetch (next : Op) :
    After (n + 1) s { c with pc := c.pc + 1, op := next } m (Machine.timed next (fun u => (fetchByte u).2) t) :=
  h.timed (c' := { c with pc := c.pc + 1 }) quiet_fetchByte next
    (by simp only [fetchByte, setPc, memRead_cpu, h.dots_cpu]) (by simp [h.ram])

theorem After.dummyRead (next : Op) : After (n + 1) s { c with op := next } m (Machine.timed next Machine.dummyRead t) :=
  h.timed quiet_dummyRead next (by simp [h.cpu]) (by simp [h.ram])

theorem After.dummyStackRead (next : Op) :
    After (n + 1) s { c with op := next } m (Machine.timed next Machine.dummyStackRead t) :=
  h.timed quiet_dummyStackRead next (by simp [dummyStackRead_eq, h.cpu]) (by simp [dummyStackRead_eq, h.ram])

/-- Taking an interrupt (R165, R168, R179). -/
theorem After.enterInterrupt {vector : Addr} (h1 : 0xC000 ≤ vector.toNat) (h2 : 0xC000 ≤ (vector + 1).toNat) (brk : Bool)
    (op : Nat → Byte → Op) :
    After (n + 5) s
      { c with pc := joinBytes (Machine.prgRead s (vector + 1)) (Machine.prgRead s vector), s := c.s - 3, p := setI c.p, op := .none }
      (stackFrame m c.s c.pc (pushedStatus c.p brk)) (enterInterrupt vector brk op t) where
  start := h.start
  passes := passes_trans h.start h.passes (passes_enterInterrupt vector brk op h.unstopped)
  cpu := by rw [enterInterrupt_cpu vector brk op h.unstopped h1 h2, h.prgRead, h.prgRead, h.cpu]
  ram := by rw [enterInterrupt_ram vector brk op h.unstopped h1 h2, h.cpu, h.ram]

/-- Returning from an interrupt (R178). -/
theorem After.returnFromInterrupt :
    After (n + 3) s
      { c with
        pc := joinBytes (sparseRead m (256 + (c.s + 3).toNat)) (sparseRead m (256 + (c.s + 2).toNat))
        s := c.s + 3
        p := pulledStatus (sparseRead m (256 + (c.s + 1).toNat))
        op := .none }
      m (returnFromInterrupt t) where
  start := h.start
  passes := passes_trans h.start h.passes (passes_returnFromInterrupt h.unstopped)
  cpu := by rw [returnFromInterrupt_cpu h.unstopped, h.cpu, h.ram]
  ram := by rw [returnFromInterrupt_ram h.unstopped, h.ram]

/-- The latch is the last action's. -/
theorem After.timed_bus (next : Op) (act : State → State) : (Machine.timed next act t).bus = (act (threeDots t)).bus := by
  rw [timed_eq next act h.unstopped]
  rfl

end

/-- The latch after a last read at `C.PC` in RAM or PRG is the byte that stood there at the start (R146). -/
theorem After.memRead_openBus (h : After n s c s.ram t) (hp : placeable c.pc = true) :
    (memRead (threeDots t) (threeDots t).cpu.pc).2.bus.openBus = byteAt s c.pc := by
  rw [h.dots_cpu, memRead_placeable _ _ hp, h.dots_byteAt]
  rfl

/-- The opcode fetch (R180). -/
theorem After.opcode (h : Machine.unstopped s = true) (opcode : Byte) (k : Nat) :
    After 1 s { s.cpu with pc := s.cpu.pc + 1, op := .insn opcode [] 2 k } s.ram (fetchOpcode opcode k s) :=
  (After.zero h).fetch _

/-! ## The service sequences (R165, R168) -/

/-- Settles O34: the sequence at the vector $FFFE. -/
theorem irqServiceEntersTheHandler : Obligations.IrqServiceEntersTheHandler := by
  unfold Obligations.IrqServiceEntersTheHandler
  intro s h
  obtain ⟨hcpu, hram, hbus, hpass⟩ := serviceInterrupt_eq Config.irqVector .irqSeq h (by decide) (by decide)
  exact ⟨_, rfl, hcpu, by rw [hram, pushedStatus_irq], hbus, hpass⟩

/-- Settles O35: the sequence at the vector $FFFA. -/
theorem nmiServiceEntersTheHandler : Obligations.NmiServiceEntersTheHandler := by
  unfold Obligations.NmiServiceEntersTheHandler
  intro s h
  obtain ⟨hcpu, hram, hbus, hpass⟩ := serviceInterrupt_eq Config.nmiVector .nmiSeq h (by decide) (by decide)
  exact ⟨_, rfl, hcpu, by rw [hram, pushedStatus_irq], hbus, hpass⟩

/-! ## The last cycles of the instructions (R174 to R184) -/

section
variable (h : After n s c m t)
include h

theorem After.sei : After (n + 1) s { c with p := setI c.p, op := .none } m (Machine.timed .none seiEffect t) :=
  h.timed (c' := { c with p := setI c.p }) quiet_sei .none (by simp [seiEffect, setP, h.cpu]) (by simp [seiEffect, h.ram])

theorem After.cli : After (n + 1) s { c with p := clearI c.p, op := .none } m (Machine.timed .none cliEffect t) :=
  h.timed (c' := { c with p := clearI c.p }) quiet_cli .none (by simp [cliEffect, setP, h.cpu]) (by simp [cliEffect, h.ram])

theorem After.jump (addr : Addr) :
    After (n + 1) s { c with pc := addr, op := .none } m (Machine.timed .none (fun u => setPc (memRead u u.cpu.pc).2 addr) t) :=
  h.timed (c' := { c with pc := addr }) (quiet_jmp addr) .none (by simp [setPc, h.cpu]) (by simp [h.ram])

theorem After.load (imm : Byte) :
    After (n + 1) s { c with pc := c.pc + 1, a := imm, p := loadFlags c.p imm, op := .none } m
      (Machine.timed .none (fun u => loadImmediate (fetchByte u).2 imm) t) :=
  h.timed (c' := { c with pc := c.pc + 1, a := imm, p := loadFlags c.p imm }) (quiet_load imm) .none
    (by simp [loadImmediate, fetchByte, setPc, setP, setA, h.cpu]) (by simp [loadImmediate, h.ram])

theorem After.php :
    After (n + 1) s { c with s := c.s - 1, op := .none } (sparseWrite m (256 + c.s.toNat) (pushedStatus c.p true))
      (Machine.timed .none phpEffect t) :=
  h.timed (c' := { c with s := c.s - 1 }) quiet_php .none
    (by simp [phpEffect, push_eq, setOpenBus, setRam, setS, h.cpu]) (by simp [phpEffect, push_eq, h.cpu, h.ram])

theorem After.plp :
    After (n + 1) s { c with s := c.s + 1, p := pulledStatus (sparseRead m (256 + (c.s + 1).toNat)), op := .none } m
      (Machine.timed .none plpEffect t) :=
  h.timed (c' := { c with s := c.s + 1, p := pulledStatus (sparseRead m (256 + (c.s + 1).toNat)) }) quiet_plp .none
    (by simp [plpEffect, pull_eq, setOpenBus, setS, setP, h.cpu, h.ram]) (by simp [plpEffect, pull_eq, h.ram])

end

/-! ## The ten instructions (R174 to R184) -/

/-- Settles O37: the opcode fetch, and a dummy read with the flag. -/
theorem seiSetsAndCliClearsTheFlag : Obligations.SeiSetsAndCliClearsTheFlag := by
  unfold Obligations.SeiSetsAndCliClearsTheFlag
  intro s h
  have fetchedSei := After.opcode h 0x78 2
  have fetchedCli := After.opcode h 0x58 2
  refine ⟨_, _, rfl, fetchedSei.sei.cpu, fetchedSei.sei.ram, fetchedSei.sei.passes,
    rfl, fetchedCli.cli.cpu, fetchedCli.cli.ram, fetchedCli.cli.passes, fun hpc => ?_⟩
  simp only [inMemory, Bool.and_true, Bool.and_eq_true] at hpc
  rw [fetchedSei.timed_bus, fetchedCli.timed_bus]
  exact ⟨fetchedSei.memRead_openBus hpc.2, fetchedCli.memRead_openBus hpc.2⟩

/-- Settles O38: NOP's dummy read, and JMP's two operand reads. -/
theorem nopAndJmpMoveThePc : Obligations.NopAndJmpMoveThePc := by
  unfold Obligations.NopAndJmpMoveThePc
  intro addr s h
  have fetchedNop := After.opcode h 0xEA 2
  have nop := fetchedNop.dummyRead .none
  have fetchedJmp := (After.opcode h 0x4C 3).fetch (.insn 0x4C [lowByte addr] 3 3)
  have jmp := fetchedJmp.jump addr
  refine ⟨_, _, rfl, nop.cpu, nop.ram, nop.passes, rfl, jmp.cpu, jmp.ram, jmp.passes, fun hpc => ?_⟩
  simp only [inMemory, Bool.and_true, Bool.and_eq_true] at hpc
  obtain ⟨-, h2, h3⟩ := hpc
  rw [fetchedNop.timed_bus, fetchedJmp.timed_bus]
  refine ⟨fetchedNop.memRead_openBus h2, (fetchedJmp.memRead_openBus h3).trans ?_⟩
  rw [BitVec.add_assoc]
  rfl

/-- Bit by bit: N from bit 7, Z where the byte is 0, the others as they were (R181). -/
theorem loadFlags_getLsbD (p imm : Byte) {k : Nat} (hk : k < 8) :
    (loadFlags p imm).getLsbD k = if k = 7 then imm.getLsbD 7 else if k = 1 then decide (imm = 0) else p.getLsbD k := by
  by_cases hz : imm = 0#8 <;> interval_cases k <;> simp [loadFlags, hz]

/-- Settles O39: the opcode fetch, and the operand's with its flags. -/
theorem ldaLoadsTheAccumulator : Obligations.LdaLoadsTheAccumulator := by
  unfold Obligations.LdaLoadsTheAccumulator
  intro imm s h
  have fetched := After.opcode h 0xA9 2
  have lda := fetched.load imm
  refine ⟨_, rfl, ?cpu, fun k hk => ?flags, lda.ram, lda.passes, fun hpc => ?latch⟩
  case cpu => rw [lda.cpu, BitVec.add_assoc]; rfl
  case flags => rw [lda.cpu]; exact loadFlags_getLsbD _ _ hk
  case latch =>
    simp only [inMemory, Bool.and_true, Bool.and_eq_true] at hpc
    rw [fetched.timed_bus]
    exact fetched.memRead_openBus hpc.2

/-- Settles O41: two reads and the push. -/
theorem phpPushesTheStatus : Obligations.PhpPushesTheStatus := by
  unfold Obligations.PhpPushesTheStatus
  intro s h
  have read := (After.opcode h 0x08 3).dummyRead (.insn 0x08 [] 3 3)
  have php := read.php
  rw [pushedStatus_brk] at php
  refine ⟨_, rfl, php.cpu, php.ram, ?_, php.passes⟩
  rw [read.timed_bus, phpEffect, push_eq, read.dots_cpu, pushedStatus_brk]
  rfl

/-- Settles O42: three reads and the pull. -/
theorem plpPullsTheStatus : Obligations.PlpPullsTheStatus := by
  unfold Obligations.PlpPullsTheStatus
  intro s h
  have read := ((After.opcode h 0x28 4).dummyRead (.insn 0x28 [] 3 4)).dummyStackRead (.insn 0x28 [] 4 4)
  have plp := read.plp
  refine ⟨_, rfl, plp.cpu, ?_, plp.ram, plp.passes⟩
  rw [read.timed_bus, plpEffect, pull_eq, read.dots_cpu, read.dots_ram]
  rfl

/-- Settles O43: three reads and the return from interrupt. -/
theorem rtiPullsTheStatusAndThePc : Obligations.RtiPullsTheStatusAndThePc := by
  unfold Obligations.RtiPullsTheStatusAndThePc
  intro s h
  have read := ((After.opcode h 0x40 6).dummyRead (.insn 0x40 [] 3 6)).dummyStackRead (.insn 0x40 [] 4 6)
  have rti := read.returnFromInterrupt
  refine ⟨_, rfl, rti.cpu, ?_, rti.ram, rti.passes⟩
  rw [returnFromInterrupt_bus read.unstopped, read.cpu, read.ram]

/-- Settles O44: two fetches and the entry at the IRQ vector. -/
theorem brkEntersTheHandler : Obligations.BrkEntersTheHandler := by
  unfold Obligations.BrkEntersTheHandler
  intro pad s h
  have fetched := (After.opcode h 0x00 7).fetch (.insn 0x00 [] 3 7)
  have brk := fetched.enterInterrupt (vector := Config.irqVector) (by decide) (by decide) true (fun k lo => .insn 0x00 [lo] k 7)
  refine ⟨_, rfl, brk.cpu, ?ram, ?latch, brk.passes⟩
  case ram => rw [brk.ram, pushedStatus_brk, BitVec.add_assoc]; rfl
  case latch =>
    rw [enterInterrupt_bus _ _ _ fetched.unstopped (by decide), fetched.prgRead]
    rfl

/-! ## RTI after the IRQ service (R256) -/

/-- The three bytes of a stack frame, wherever the stack pointer stands. -/
theorem stackFrame_read (hm : Memory.wf 0 2048 m = true) (sp : Byte) (pc : Addr) (status : Byte) :
    sparseRead (stackFrame m sp pc status) (256 + sp.toNat) = highByte pc ∧
    sparseRead (stackFrame m sp pc status) (256 + (sp - 1).toNat) = lowByte pc ∧
    sparseRead (stackFrame m sp pc status) (256 + (sp - 2).toNat) = status := by
  have hs := sp.isLt
  have hs1 := (sp - 1).isLt
  have hs2 := (sp - 2).isLt
  have h01 : 256 + sp.toNat ≠ 256 + (sp - 1).toNat := by bv_omega
  have h02 : 256 + sp.toNat ≠ 256 + (sp - 2).toNat := by bv_omega
  have h12 : 256 + (sp - 1).toNat ≠ 256 + (sp - 2).toNat := by bv_omega
  have hm1 := sparseWrite_wf m 2048 0 (256 + sp.toNat) (highByte pc) hm (by omega) (by omega)
  have hm2 := sparseWrite_wf _ 2048 0 (256 + (sp - 1).toNat) (lowByte pc) hm1 (by omega) (by omega)
  unfold stackFrame
  refine ⟨?_, ?_, sparseRead_write_same _ 2048 0 _ _ hm2⟩
  · rw [sparseRead_write_other _ _ _ _ h02, sparseRead_write_other _ _ _ _ h01, sparseRead_write_same _ 2048 0 _ _ hm]
  · rw [sparseRead_write_other _ _ _ _ h12, sparseRead_write_same _ 2048 0 _ _ hm1]

/-- Settles O36: RTI pulls the three bytes that the service pushed. -/
theorem rtiUndoesTheIrqService : Obligations.RtiUndoesTheIrqService := by
  unfold Obligations.RtiUndoesTheIrqService
  intro s h hm hp
  obtain ⟨t, ht, tcpu, tram, -, tpass⟩ := irqServiceEntersTheHandler s h
  obtain ⟨u, hu, ucpu, -⟩ := rtiPullsTheStatusAndThePc t (passes_unstopped h tpass)
  refine ⟨t, u, ht, hu, ?_⟩
  rw [← pushedStatus_irq] at tram
  obtain ⟨hhigh, hlow, hstatus⟩ := stackFrame_read hm s.cpu.s s.cpu.pc (pushedStatus s.cpu.p false)
  have e1 : t.cpu.s + 1 = s.cpu.s - 2 := by rw [tcpu]; bv_omega
  have e2 : t.cpu.s + 2 = s.cpu.s - 1 := by rw [tcpu]; bv_omega
  have e3 : t.cpu.s + 3 = s.cpu.s := by rw [tcpu]; bv_omega
  rw [ucpu, tram, e1, e2, e3, hhigh, hlow, hstatus, tcpu]
  have hpull : pushedStatus s.cpu.p false &&& 0xCF = s.cpu.p := pulledStatus_pushed s.cpu.p false hp
  have hpc : highByte s.cpu.pc ++ lowByte s.cpu.pc = s.cpu.pc := joinBytes_high_low s.cpu.pc
  rw [hpull, hpc]

/-! ## STA (R182) -/

theorem quiet_id : quietAction id :=
  fun _ => ⟨rfl, rfl, rfl, ⟨rfl, rfl, rfl, rfl, rfl, rfl, rfl⟩, ⟨rfl, rfl, rfl, rfl, rfl, rfl, rfl, id⟩⟩

/-- A cycle whose action is a write is the write after a cycle of its dots alone. -/
theorem timed_memWrite (h : unstopped t = true) (next : Op) (a : Addr) {v : Byte} (hv : t.cpu.a = v) :
    timed next (fun u => memWrite u a u.cpu.a) t = memWrite (timed next id t) a v := by
  rw [timed_eq _ _ h, timed_eq _ _ h, memWrite_counted, threeDots_cpu, hv]
  rfl

/-- A write leaves every RAM byte but the one at its address (R54, R63). -/
theorem ramLoad_memWrite_other {a b : Addr} (hb : ¬(a.toNat ≤ 0x1FFF ∧ b.toNat % 2048 = a.toNat % 2048)) (v : Byte) :
    ramLoad (memWrite s a v) b = ramLoad s b := by
  unfold ramLoad
  rw [memWrite_ram]
  split
  case isTrue ha => exact sparseRead_write_other _ _ _ _ fun hab => hb ⟨ha, hab⟩
  case isFalse => rfl

/-- Settles O40: three fetches, a cycle's dots, and the write. -/
theorem staStoresTheAccumulator : Obligations.StaStoresTheAccumulator := by
  unfold Obligations.StaStoresTheAccumulator
  intro addr s h
  have opcode := After.opcode h 0x8D 4
  have low := opcode.fetch (.insn 0x8D [lowByte addr] 3 4)
  have high := low.fetch (.insn 0x8D [lowByte addr, highByte addr] 4 4)
  have dots := high.timed quiet_id .none high.dots_cpu high.dots_ram
  refine ⟨_, ?write, ?cpu, dots.ram, dots.passes, fun b hb hne => ?other, fun ha => ?same, fun hpc => ?latch⟩
  case write => exact congrArg Host.Outcome.next (timed_memWrite high.unstopped .none addr (by rw [high.cpu]))
  case cpu => rw [dots.cpu, BitVec.add_assoc, BitVec.add_assoc]; rfl
  case other => rw [ramLoad_memWrite_other hne, ramLoad, dots.ram]; rfl
  case same => rw [memWrite_ram, if_pos ha, dots.ram]
  case latch =>
    simp only [inMemory, Bool.and_true, Bool.and_eq_true] at hpc
    obtain ⟨h1, h2, h3⟩ := hpc
    have lopcode := leftToDots_fetchOpcode h h1 0x8D 4
    have llow := lopcode.fetch (by rwa [opcode.cpu]) (.insn 0x8D [lowByte addr] 3 4)
    have lhigh := llow.fetch (by rwa [low.cpu]) (.insn 0x8D [lowByte addr, highByte addr] 4 4)
    refine ⟨(lhigh.timed (act := id) (.refl _) .none).ppuSide.1, ?_⟩
    rw [high.timed_bus, id, threeDots_bus, low.timed_bus]
    refine (low.memRead_openBus h3).trans ?_
    rw [BitVec.add_assoc]
    rfl

end Sys2Proof.Machine
end

section
/-! SUPPORT. CPU cycles one by one inside an operation: a DMA stall, cycle by cycle (R172; O33), and an opcode outside R89, refused or
handed to `cpu_exec` (R186, R190; O45, O46). -/

namespace Sys2Proof.Machine

variable {s t : State}

/-! ## Runs of CPU cycles (R102) -/

theorem cycles_succ (k : Nat) (s : State) : cycles (k + 1) s = cpuCycle (cycles k s) := by
  induction k generalizing s with
  | zero => rfl
  | succ k ih => rw [cycles, ih]; rfl

/-- A CPU cycle of an unstopped instance that fetches no opcode: its action is counted, and it is one cycle of time. -/
theorem cpuCycle_acts (h : unstopped s = true) (hf : (boundary (threeDots s)).cpu.op ≠ .fetch) :
    cpuCycle s = countCycle (performCycle (boundary (threeDots s))) ∧ tookCycles 1 s (cpuCycle s) ∧
      hostUntouched s (cpuCycle s) ∧ unstopped (cpuCycle s) = true := by
  rcases cpuCycle_cases s with ⟨hd, -⟩ | ⟨-, ⟨⟨khost, ksched, -⟩, e⟩ | ⟨-, hop, -⟩⟩
  · simp [halted_of_unstopped (unstopped_threeDots h)] at hd
  · obtain ⟨bhost, bsched, -⟩ := boundary_keeps (threeDots s)
    have hhost : (cpuCycle s).host = (threeDots s).host := by rw [e, countCycle_host, khost, bhost]
    have hsched : (cpuCycle s).sched = { (threeDots s).sched with cpuCycles := s.sched.cpuCycles + 1 } := by
      rw [e, countCycle, setSched_sched, ksched, bsched, threeDots_sched_cpuCycles]
    have huntouched : hostUntouched s (cpuCycle s) := by
      simp [hostUntouched, hhost, hsched, threeDots_host_fault h, threeDots_host_reply h]
    have hfault : (cpuCycle s).host.fault = s.host.fault := by rw [hhost, threeDots_host_fault h]
    obtain ⟨⟨-, -, -, hfull, hwide, -⟩, -⟩ := cpuCycle_parameters s
    exact ⟨e, hsched, huntouched, by rw [unstopped_congr hfault hfull hwide, h]⟩
  · exact absurd hop hf

/-- Inside an operation other than the fetch, the cycle's action is the operation's. -/
theorem cpuCycle_inside (h : unstopped s = true) (hn : s.cpu.op ≠ .none) (hf : s.cpu.op ≠ .fetch) :
    cpuCycle s = countCycle (performCycle (threeDots s)) ∧ tookCycles 1 s (cpuCycle s) ∧
      hostUntouched s (cpuCycle s) ∧ unstopped (cpuCycle s) = true := by
  have hb : boundary (threeDots s) = threeDots s := boundary_inside (by simpa using hn)
  have hc := cpuCycle_acts h (by rw [hb]; simpa using hf)
  rwa [hb] at hc

/-! ## The cycles of a DMA stall (R172) -/

section
variable (page : Byte) (k n : Nat) (b : Byte) (s : State)

theorem performCycle_dma {s : State} (ho : s.cpu.op = .dma page k n b) :
    performCycle s = setOp (dmaCycle page k n b s).2 (if n ≤ k then .none else .dma page (k + 1) n (dmaCycle page k n b s).1) := by
  simp [performCycle, ho]

/-- The first of a pair reads {page, i}. -/
theorem dmaCycle_read (i : Nat) :
    dmaCycle page (n - 512 + 2 * i + 1) n b s = memRead s (page ++ BitVec.ofNat 8 i) := by
  have hk : n - 512 + 2 * i + 1 - (n - 512) - 1 = 2 * i := by omega
  rw [dmaCycle, if_neg (by omega), hk, if_pos (by omega), Nat.mul_div_cancel_left i (by decide)]
  rfl

/-- The second of a pair hands the byte over to PPU register 4. -/
theorem dmaCycle_write (i : Nat) :
    dmaCycle page (n - 512 + 2 * i + 2) n b s = (b, setOpenBus (ppuRegWrite s 4 b) b) := by
  rw [dmaCycle, if_neg (by omega), if_neg (by omega)]

/-- No cycle of a stall touches a CPU register, RAM or PPUMASK. -/
theorem dmaCycle_registers : (dmaCycle page k n b s).2.cpu = s.cpu ∧ (dmaCycle page k n b s).2.ram = s.ram ∧
    (dmaCycle page k n b s).2.ppu.mask = s.ppu.mask := by
  unfold dmaCycle
  (repeat' split) <;> simp

end

/-- After k cycles of a stall of n that a request for this page began at s. -/
structure InStall (page : Byte) (n k : Nat) (s t : State) : Prop where
  start : unstopped s = true
  unstopped : unstopped t = true
  time : tookCycles k s t
  mask : t.ppu.mask = s.ppu.mask
  params : t.params = s.params
  ram : t.ram = s.ram
  cpu : ∃ b, t.cpu = { s.cpu with op := if n ≤ k then .none else .dma page (k + 1) n b, dmaPending := none }

section
variable {page : Byte} {n k : Nat}

theorem tookCycles_zero (s : State) : tookCycles 0 s s := rfl

/-- One more cycle, of a state that is in the stall once its boundary, if it is at one, has been taken. -/
theorem InStall.cycle {b : Byte} (hs : Machine.unstopped s = true) (ht : Machine.unstopped t = true) (htime : tookCycles k s t)
    (hmask : t.ppu.mask = s.ppu.mask) (hparams : t.params = s.params) (hram : t.ram = s.ram)
    (hcpu : (boundary (threeDots t)).cpu = { s.cpu with op := .dma page (k + 1) n b, dmaPending := none }) :
    InStall page n (k + 1) s (cpuCycle t) := by
  have ho : (boundary (threeDots t)).cpu.op = .dma page (k + 1) n b := by rw [hcpu]
  obtain ⟨e, hcycle, -, hu⟩ := cpuCycle_acts ht (by rw [ho]; exact Op.noConfusion)
  obtain ⟨-, -, -, -, -, bppu, -, bram, -⟩ := boundary_keeps (threeDots t)
  obtain ⟨dcpu, dram, dmask⟩ := dmaCycle_registers page (k + 1) n b (boundary (threeDots t))
  rw [performCycle_dma page (k + 1) n b ho] at e
  refine ⟨hs, hu, tookCycles_trans hs ht htime hmask hparams hcycle, ?mask, (cpuCycle_parameters t).1.2.1.trans hparams, ?ram,
    (dmaCycle page (k + 1) n b (boundary (threeDots t))).1, ?cpu⟩
  case mask => rw [e, countCycle_ppu, setOp_ppu, dmask, bppu, threeDots_ppu_mask, hmask]
  case ram => rw [e, countCycle_ram, setOp_ram, dram, bram, threeDots_ram, hram]
  case cpu => rw [e, countCycle_cpu, setOp, dcpu, hcpu]

/-- The first cycle, at the boundary that takes the request. -/
theorem InStall.first (h : Machine.unstopped s = true) (ho : s.cpu.op = .none) (hd : s.cpu.dmaPending = some page)
    (hn : n = 513 + s.sched.cpuCycles % 2) : InStall page n 1 s (cpuCycle s) := by
  refine .cycle (b := 0) h h (tookCycles_zero s) rfl rfl rfl ?_
  rw [boundary_of_none (by simpa using ho), arbitrate_dma (page := page) (by simpa using hd), threeDots_sched_cpuCycles, ← hn,
    setOp, setDma, threeDots_cpu]

/-- A further cycle. -/
theorem InStall.next (h : InStall page n k s t) (hk : k < n) : InStall page n (k + 1) s (cpuCycle t) := by
  obtain ⟨b, hcpu⟩ := h.cpu
  rw [if_neg (by omega)] at hcpu
  refine .cycle (b := b) h.start h.unstopped h.time h.mask h.params h.ram ?_
  rw [boundary_inside (by rw [threeDots_cpu, hcpu]; exact Op.noConfusion), threeDots_cpu, hcpu]

theorem inStall_cycles (h : Machine.unstopped s = true) (ho : s.cpu.op = .none) (hd : s.cpu.dmaPending = some page)
    (hn : n = 513 + s.sched.cpuCycles % 2) (hk : 1 ≤ k) (hkn : k ≤ n) : InStall page n k s (cycles k s) := by
  induction k, hk using Nat.le_induction with
  | base => exact .first h ho hd hn
  | succ k hk ih =>
    rw [cycles_succ]
    exact (ih (by omega)).next hkn

/-- Each cycle but the first of a stall is its own action after its dots. -/
theorem InStall.cpuCycle_eq (h : InStall page n k s t) {b : Byte} (ho : t.cpu.op = .dma page (k + 1) n b) :
    cpuCycle t = countCycle (setOp (dmaCycle page (k + 1) n b (threeDots t)).2
      (if n ≤ k + 1 then .none else .dma page (k + 2) n (dmaCycle page (k + 1) n b (threeDots t)).1)) := by
  obtain ⟨e, -⟩ := cpuCycle_inside h.unstopped (by rw [ho]; exact Op.noConfusion) (by rw [ho]; exact Op.noConfusion)
  rw [e, performCycle_dma page (k + 1) n b (by rw [threeDots_cpu, ho])]

/-- A hand-over, counted and completed. -/
theorem handOverByte_eq (u : State) (b : Byte) (op : Op) :
    countCycle (setOp (setOpenBus (ppuRegWrite u 4 b) b) op) = { ppuRegWrite u 4 b with
      bus := { openBus := b }
      cpu := { u.cpu with op := op }
      sched := { u.sched with cpuCycles := u.sched.cpuCycles + 1 } } := by
  rw [ppuRegWrite_eq]
  rfl

/-- A pair of cycles: the read, and the hand-over of its byte (R172). -/
theorem stall_pair {i : Nat} (hi : i < 256) (hv : InStall page n (n - 512 + 2 * i) s t) (hn : 512 < n) :
    let r := memRead (dots 3 t) (page ++ BitVec.ofNat 8 i)
    let u := dots 3 (cpuCycle t)
    cpuCycle t = { r.2 with
      cpu := { r.2.cpu with op := .dma page (n - 512 + 2 * i + 2) n r.1 }
      sched := { r.2.sched with cpuCycles := r.2.sched.cpuCycles + 1 } } ∧
    cpuCycle (cpuCycle t) = { ppuRegWrite u 4 r.1 with
      bus := { openBus := r.1 }
      cpu := { u.cpu with op := if i = 255 then .none else .dma page (n - 512 + 2 * i + 3) n r.1 }
      sched := { u.sched with cpuCycles := u.sched.cpuCycles + 1 } } := by
  intro r u
  obtain ⟨b, hcpu⟩ := hv.cpu
  rw [if_neg (by omega)] at hcpu
  have e1 := hv.cpuCycle_eq (b := b) (by rw [hcpu])
  rw [dmaCycle_read, if_neg (by omega)] at e1
  have ho : (cpuCycle t).cpu.op = .dma page (n - 512 + 2 * i + 2) n r.1 := by rw [e1]; rfl
  have e2 := (hv.next (by omega)).cpuCycle_eq ho
  have hlast : n ≤ n - 512 + 2 * i + 1 + 1 ↔ i = 255 := by omega
  simp only [hlast, dmaCycle_write] at e2
  exact ⟨e1, e2.trans (handOverByte_eq u r.1 _)⟩

/-- The last byte of a page in RAM (R54, R172). -/
theorem memRead_page_last {u : State} (hp : page.toNat < 0x20) :
    (memRead u (page ++ BitVec.ofNat 8 255)).1 = sparseRead u.ram (page.toNat % 8 * 256 + 255) := by
  have ha : (page ++ BitVec.ofNat 8 255).toNat = page.toNat * 256 + 255 := joinBytes_toNat page 255
  rw [memRead_of_ram _ _ (by omega), ramLoad, ramIndex, ha, Config.ramBytes,
    show (page.toNat * 256 + 255) % 2048 = page.toNat % 8 * 256 + 255 by omega]

end

/-- Settles O33: the stall cycle by cycle, and its pairs; the last hand-over leaves the page's last byte in the latch. -/
theorem dmaStallTakes513Or514Cycles : Obligations.DmaStallTakes513Or514Cycles := by
  unfold Obligations.DmaStallTakes513Or514Cycles
  intro p s h ho hd n t
  have hn : n = 513 + s.sched.cpuCycles % 2 := rfl
  have hstall : ∀ k, 1 ≤ k → k ≤ n → InStall p n k s (cycles k s) := fun k => inStall_cycles h ho hd hn
  have hpair : ∀ i, i < 256 → _ := fun i hi => stall_pair hi (hstall (n - 512 + 2 * i) (by omega) (by omega)) (by omega)
  have hend := hstall n (by omega) (Nat.le_refl n)
  refine ⟨fun k hk hkn => ?inside, fun i hi => ?pair, ?cpu, hend.ram, hend.time, fun hp => ?latch⟩
  case inside =>
    obtain ⟨b, hcpu⟩ := (hstall k hk (by omega)).cpu
    exact ⟨b, by rw [hcpu, if_neg (by omega)]⟩
  case pair =>
    rw [show n - 512 + 2 * i + 2 = n - 512 + 2 * i + 1 + 1 from rfl, cycles_succ (n - 512 + 2 * i + 1), cycles_succ (n - 512 + 2 * i)]
    exact hpair i hi
  case cpu =>
    obtain ⟨b, hcpu⟩ := hend.cpu
    rw [hcpu, if_pos (Nat.le_refl n)]
  case latch =>
    obtain ⟨-, hlast⟩ := hpair 255 (by decide)
    rw [← cycles_succ, ← cycles_succ, show n - 512 + 2 * 255 + 1 + 1 = n by omega] at hlast
    have hram := (hstall (n - 512 + 2 * 255) (by omega) (by omega)).ram
    change (cycles n s).bus.openBus = _
    rw [hlast]
    exact (memRead_page_last hp).trans (by rw [dots_ram, hram])

/-! ## An opcode outside R89 (R186, R190) -/

theorem exec_unmodelledOpcode (h : unstopped s = true) (op : Byte) :
    exec (.unmodelledOpcode op) s = .next (handOver op (threeDots s)) :=
  congrArg Host.Outcome.next (if_neg (by simp [halted_of_unstopped (unstopped_threeDots h)]))

theorem handOver_refused (hx : s.ext.cpuExec = false) (op : Byte) :
    handOver op s = refuseOpcode (setOp (fetchByte s).2 .fetch) op := if_neg (by simp [hx])

theorem handOver_engine (hx : s.ext.cpuExec = true) (op : Byte) :
    handOver op s = runWhile inOperation 513 (countCycle (setOp (fetchByte s).2 (.external op 2))) := if_pos hx

/-- A refusal stops the instance (R250). -/
theorem halted_refuseOpcode (s : State) (op : Byte) : halted (refuseOpcode s op) = true := rfl

/-- Settles O45: the fetch, and the refusal of its opcode at the address it was fetched from. -/
theorem unmodelledOpcodeIsRefused : Obligations.UnmodelledOpcodeIsRefused := by
  unfold Obligations.UnmodelledOpcodeIsRefused
  intro op s h hx
  obtain ⟨-, -, hdots⟩ := threeDots_frame h
  obtain ⟨-, -, -, -, hfetch⟩ := quiet_fetchByte (threeDots s)
  have haddr : (setOp (fetchByte (threeDots s)).2 .fetch).cpu.pc - 1 = s.cpu.pc := by simp
  refine ⟨refuseOpcode (setOp (fetchByte (threeDots s)).2 .fetch) op, ?_, ?_⟩
  · rw [exec_unmodelledOpcode h, handOver_refused (by simpa using hx)]
  · rw [refuseOpcode, haddr]
    refine ⟨rfl, rfl, ?frame, ?cpu, ?ram, ?sched, ?kept⟩
    case frame => simp [raiseFault]
    case cpu => simp [raiseFault, setOp, fetchByte, setPc]
    case ram => simp [raiseFault]
    case sched => simp [raiseFault, threeDots_eq]
    case kept => simpa [registersKept, raiseFault] using registersKept_trans hdots hfetch

/-! ## The cycles that `cpu_exec` performs (R186, R44) -/

section
variable {op : Byte} {k : Nat}

/-- A cycle of the engine: dots, its access, and what it leaves. -/
theorem cpuCycle_external (h : unstopped s = true) (ho : s.cpu.op = .external op k) :
    cpuCycle s = countCycle (externalCycle op k (threeDots s)) ∧ tookCycles 1 s (cpuCycle s) ∧
      hostUntouched s (cpuCycle s) ∧ unstopped (cpuCycle s) = true := by
  have hperform : performCycle (threeDots s) = externalCycle op k (threeDots s) := by simp [performCycle, ho]
  rw [← hperform]
  exact cpuCycle_inside h (by rw [ho]; exact Op.noConfusion) (by rw [ho]; exact Op.noConfusion)

/-- The engine's access leaves the status to the write-back. -/
theorem externalAccess_cpu_p (s : State) (q : BusRequest) : (externalAccess s q).2.cpu.p = s.cpu.p := by
  cases q <;> simp [externalAccess]

/-- The engine leaves I as it was (R44). -/
theorem externalCycle_flagI (op : Byte) (k : Nat) (s : State) :
    (externalCycle op k s).cpu.p.getLsbD 2 = s.cpu.p.getLsbD 2 := by
  simp only [externalCycle, writeBack, setOp_cpu_p, setExt_cpu, setA_cpu_p, setP_cpu_p, externalAccess_cpu_p]
  simp [engineStatus]

/-- What the engine leaves, written back and counted. -/
theorem countCycle_writeBack (s : State) (e : CpuExecResult) (next : Op) :
    countCycle (setOp (writeBack s e) next) = { s with
      cpu := { s.cpu with
        pc := e.regs.pc, s := e.regs.s, p := (e.regs.p &&& 0xCB) ||| (s.cpu.p &&& 0x04), a := e.regs.a, op := next }
      ext := { s.ext with cpuSt := e.next }
      sched := { s.sched with cpuCycles := s.sched.cpuCycles + 1 } } := by
  simp only [countCycle, setSched, setOp, writeBack, setExt, setA, setP, setS, setPc, engineStatus]

/-- The operation after a cycle of the engine: the next cycle, or none after its last. -/
theorem externalCycle_op (op : Byte) (k : Nat) (s : State) :
    (externalCycle op k s).cpu.op = .none ∨ (externalCycle op k s).cpu.op = .external op (k + 1) := by
  simp only [externalCycle, setOp_cpu_op]
  split
  · exact .inl rfl
  · exact .inr rfl

/-- After j cycles of the engine from u, inside its instruction or at the boundary after it. -/
structure InEngine (op : Byte) (j : Nat) (u v : State) : Prop where
  unstopped : unstopped v = true
  host : hostUntouched u v
  parameters : sameParameters u v
  flagI : v.cpu.p.getLsbD 2 = u.cpu.p.getLsbD 2
  count : v.sched.cpuCycles = u.sched.cpuCycles + j
  op : v.cpu.op = .none ∨ v.cpu.op = .external op (j + 2)

variable {j : Nat} {u v : State}

theorem InEngine.first (h : Machine.unstopped u = true) (ho : u.cpu.op = .external op 2) : InEngine op 0 u u :=
  ⟨h, ⟨rfl, rfl, rfl, rfl, rfl, rfl, rfl, rfl⟩, ⟨rfl, rfl, rfl, rfl, rfl, rfl, rfl⟩, rfl, rfl, .inr ho⟩

/-- One more cycle, inside the instruction. -/
theorem InEngine.next (h : InEngine op j u v) (ho : v.cpu.op ≠ .none) : InEngine op (j + 1) u (cpuCycle v) := by
  have hop := h.op.resolve_left ho
  obtain ⟨e, htime, hhost, hu⟩ := cpuCycle_external h.unstopped hop
  refine ⟨hu, hostUntouched_trans h.host hhost, sameParameters_trans h.parameters (cpuCycle_parameters v).1, ?flagI, ?count, ?op⟩
  case flagI => rw [e, countCycle_cpu, externalCycle_flagI, threeDots_cpu, h.flagI]
  case count => rw [htime, h.count, Nat.add_assoc]
  case op => rw [e]; exact externalCycle_op op (j + 2) (threeDots v)

theorem inEngine_cycles {m : Nat} (h : Machine.unstopped u = true) (ho : u.cpu.op = .external op 2)
    (hrun : ∀ k, 1 ≤ k → k < m → inOperation (cycles k u) = true) (hj : j ≤ m) : InEngine op j u (cycles j u) := by
  induction j with
  | zero => exact .first h ho
  | succ j ih =>
    rw [cycles_succ]
    refine (ih (by omega)).next fun hnone => ?_
    cases j with
    | zero => exact Op.noConfusion (ho.symm.trans hnone)
    | succ j => simpa [inOperation, hnone, opIsNone] using hrun (j + 1) (by omega) (by omega)

end

/-- Settles O46: the fetch cycle and the engine's own, which go on up to a boundary or to their bound. -/
theorem unmodelledOpcodeGoesToTheEngine : Obligations.UnmodelledOpcodeGoesToTheEngine := by
  unfold Obligations.UnmodelledOpcodeGoesToTheEngine
  intro op s h hx
  constructor
  · have fetched := (After.zero h).fetch (.external op 2)
    set u := timed (.external op 2) (fun t => (fetchByte t).2) s with hu
    have hop : u.cpu.op = .external op 2 := by rw [fetched.cpu]
    obtain ⟨m, hm, e, hrun, hend⟩ := runWhile_eq inOperation 513 u
    have hlast := inEngine_cycles fetched.unstopped hop hrun (Nat.le_refl m)
    obtain ⟨htime, hhost, hparams, -⟩ := fetched.passes
    refine ⟨cycles m u, u, m, ?exec, fetched.cpu, fetched.ram, fetched.passes, rfl, hm, hostUntouched_trans hhost hlast.host,
      sameParameters_trans hparams hlast.parameters, ?flagI, ?count, ?done⟩
    case exec => rw [exec_unmodelledOpcode h, handOver_engine (by simpa using hx), ← e, hu, timed_eq _ _ h]; rfl
    case flagI => rw [hlast.flagI, fetched.cpu]
    case count => rw [hlast.count, htime]
    case done =>
      rcases hend with rfl | ⟨-, hstop⟩
      · exact hlast.op.imp id fun ho => ⟨rfl, ho⟩
      · have hrunning := halted_of_unstopped hlast.unstopped
        exact .inl (hlast.op.resolve_right fun ho => by simp [inOperation, ho, opIsNone, hrunning] at hstop)
  · intro k ho d r e
    obtain ⟨hcycle, htime, -⟩ := cpuCycle_external h ho
    refine ⟨cpuCycle s, rfl, htime, ?_⟩
    have haccess : externalAccess d (Config.cpuExecRequest d.ext.cpuSt op k (cpuRegs d)) = r := by
      simp only [r]
      cases Config.cpuExecRequest d.ext.cpuSt op k (cpuRegs d) <;> rfl
    have hstatus : s.cpu.p = r.2.cpu.p := by rw [← haccess, externalAccess_cpu_p, dots_cpu]
    rw [hcycle, externalCycle, threeDots_eq, haccess, hstatus]
    exact countCycle_writeBack r.2 e _

end Sys2Proof.Machine
end

section
/-! SUPPORT. A step inside a STEP at a boundary: the machine's own cycles are the timed cycles of the decoded instruction, of the IRQ
service and of the NMI service, up to the next boundary (R101, R160, R162, R180; log 2; O57). -/

namespace Sys2Proof.Machine

variable {s t u : State}

/-! ## A frame that is not done at the end of an operation was not done on the way (R106) -/

theorem ppuDot_frameDone (h : s.sched.frameDone = true) : (ppuDot s).sched.frameDone = true := by
  rcases ppuDot_cases s with ⟨-, e⟩ | ⟨-, -, e⟩ | ⟨-, -, e⟩
  · rw [e, h]
  · simp [e, raisePpuAddrWidth, raiseFault, h]
  · simp [e, wholeDot_sched, schedAfterDot, h]

theorem cpuCycle_frameDone (h : s.sched.frameDone = true) : (cpuCycle s).sched.frameDone = true := by
  have hdots : (threeDots s).sched.frameDone = true := ppuDot_frameDone (ppuDot_frameDone (ppuDot_frameDone h))
  obtain ⟨-, bsched, -⟩ := boundary_keeps (threeDots s)
  rcases cpuCycle_cases s with ⟨-, e⟩ | ⟨-, ⟨⟨-, ksched, -⟩, e⟩ | ⟨-, -, hr, e⟩⟩
  · rw [e, hdots]
  · rw [e, countCycle_sched_frameDone, ksched, bsched, hdots]
  · simp [e, hr, refuseOpcode, raiseFault, bsched, hdots]

theorem runWhile_frameDone (goOn : State → Bool) (n : Nat) (h : s.sched.frameDone = true) :
    (runWhile goOn n s).sched.frameDone = true :=
  runWhile_keeps (fun s t => s.sched.frameDone = true → t.sched.frameDone = true) (fun _ h => h) (fun _ _ _ h1 h2 h => h2 (h1 h))
    (fun _ => cpuCycle_frameDone) goOn n s h

/-- A run of an operation that leaves the frame not done is the frame's own. -/
theorem runWhile_inFrameOperation (n : Nat) (h : (runWhile inOperation n s).sched.frameDone = false) :
    runWhile inFrameOperation n s = runWhile inOperation n s := by
  induction n generalizing s with
  | zero => rfl
  | succ n ih =>
    rw [runWhile] at h
    rw [runWhile, runWhile]
    cases ho : inOperation (cpuCycle s)
    · simp [inFrameOperation, ho]
    · rw [ho, if_pos rfl] at h
      have hd : (cpuCycle s).sched.frameDone = false := by
        cases hd : (cpuCycle s).sched.frameDone
        · rfl
        · rw [runWhile_frameDone inOperation n hd] at h
          cases h
      simp [inFrameOperation, ho, hd, ih h]

/-- Inside a STEP with nothing waiting, an operation that leaves the frame not done is the whole step. -/
theorem step_of_run (hs : s.host.inStep = true) (hb : s.host.inbox = []) (ht : runWhile inOperation longestOperation s = t)
    (hd : t.sched.frameDone = false) : step s = .next (settle t) := by
  rw [step_operation hs hb, frameOperation, runWhile_inFrameOperation _ (by rw [ht, hd]), ht]

/-! ## A CPU cycle as a timed cycle (R100, R102, R160) -/

theorem halted_of_threeDots (h : halted (threeDots s) = false) : halted s = false := by
  cases hs : halted s
  · rfl
  · rw [threeDots_halted hs, hs] at h
    cases h

theorem timed_of_dots (h : halted (threeDots s) = false) (next : Op) (act : State → State) :
    timed next act s = setOp (countCycle (act (threeDots s))) next := if_neg (by simp [h])

/-- A timed cycle that is not halted has had its dots and its action. -/
theorem threeDots_of_timed {next : Op} {act : State → State} (h : halted (timed next act s) = false) :
    halted (threeDots s) = false := by
  cases hd : halted (threeDots s)
  · rfl
  · rw [timed, unlessHalted, if_pos hd, hd] at h
    cases h

/-- The CPU cycle from t has this action, and this operation after it, unless its dots stop it. -/
def Acts (t : State) (act : State → State) (next : Op) : Prop :=
  halted (threeDots t) = false →
    performCycle (boundary (threeDots t)) = setOp (act (threeDots t)) next ∧ (act (threeDots t)).host = (threeDots t).host

theorem Acts.congr {act act' : State → State} {next : Op} (h : Acts t act next)
    (he : halted (threeDots t) = false → act (threeDots t) = act' (threeDots t)) : Acts t act' next :=
  fun hd => he hd ▸ h hd

theorem Acts.cpuCycle_eq {act : State → State} {next : Op} (h : Acts t act next) : cpuCycle t = timed next act t := by
  cases hd : halted (threeDots t)
  · obtain ⟨e, hhost⟩ := h hd
    have hrun : halted (setOp (act (threeDots t)) next) = false := by rw [halted, setOp_host, hhost]; exact hd
    rw [cpuCycle_of_dots hd, e, timed_of_dots hd, unlessHalted, if_neg (by simp [hrun])]
    rfl
  · simp only [cpuCycle, timed, unlessHalted, hd, if_true]

/-! ## The machine's own cycles inside one operation (R160) -/

/-- A run of an operation from s goes on from t, n cycles later, with this operation there; or a fault has stopped it there. -/
structure Running (n : Nat) (s : State) (op : Op) (t : State) : Prop where
  run : ∀ m, runWhile inOperation (n + m + 1) s = runWhile inOperation (m + 1) t
  op : halted t = false → t.cpu.op = op

/-- A run ends in its next cycle if that is halted or comes to a boundary. -/
theorem runWhile_ends (n : Nat) (h : inOperation (cpuCycle s) = false) : runWhile inOperation (n + 1) s = cpuCycle s := by
  rw [runWhile, h]
  rfl

theorem inOperation_halted (h : halted s = true) : inOperation s = false := by simp [inOperation, h]

theorem inOperation_of_op (h : halted s = false) (ho : opIsNone s.cpu.op = false) : inOperation s = true := by
  simp [inOperation, h, ho]

theorem Running.start (s : State) : Running 0 s s.cpu.op s := ⟨fun m => by rw [Nat.zero_add], fun _ => rfl⟩

section
variable {n : Nat} {op next : Op} {act : State → State}

/-- One more cycle, which does not come to a boundary. -/
theorem Running.cycle (h : Running n s op t) (ha : Acts t act next) (hnext : opIsNone next = false) :
    Running (n + 1) s next (timed next act t) := by
  have hop : halted (timed next act t) = false → (timed next act t).cpu.op = next := fun hu => by
    rw [timed_of_dots (threeDots_of_timed hu)]
    rfl
  refine ⟨fun m => ?_, hop⟩
  rw [show n + 1 + m + 1 = n + (m + 1) + 1 by omega, h.run, runWhile, ha.cpuCycle_eq]
  cases hu : halted (timed next act t)
  · rw [inOperation_of_op hu (by rw [hop hu, hnext]), if_pos rfl]
  · have hstay : cpuCycle (timed next act t) = timed next act t := cpuCycle_halted hu
    rw [inOperation_halted hu, if_neg Bool.false_ne_true, runWhile_ends m (by rw [hstay, inOperation_halted hu]), hstay]

/-- The last cycle, which comes to a boundary. -/
theorem Running.last (h : Running n s op t) (ha : Acts t act .none) (m : Nat) :
    runWhile inOperation (n + m + 1) s = timed .none act t := by
  rw [h.run, runWhile_ends m, ha.cpuCycle_eq]
  rw [ha.cpuCycle_eq]
  cases hu : halted (timed .none act t)
  · rw [timed_of_dots (threeDots_of_timed hu)]
    rfl
  · exact inOperation_halted hu

/-- A cycle of this operation is this action, with this operation after it. -/
def Performs (op : Op) (act : State → State) (next : State → Op) : Prop :=
  ∀ u, performCycle (setOp u op) = setOp (act (setOp u op)) (next (setOp u op))

theorem setOp_self (h : u.cpu.op = op) : setOp u op = u := by
  rw [← h]
  rfl

/-- Inside an operation the cycle is the operation's. -/
theorem Running.acts (h : Running n s op t) {following : State → Op} (hp : Performs op act following)
    (hop : (opIsNone op || opIsFetch op) = false) (hnext : halted (threeDots t) = false → following (threeDots t) = next) :
    Acts t act next := by
  intro hd
  have ho : (threeDots t).cpu.op = op := by rw [threeDots_cpu]; exact h.op (halted_of_threeDots hd)
  obtain ⟨hnone, hfetch⟩ := Bool.or_eq_false_iff.1 hop
  have hb : boundary (threeDots t) = threeDots t := by rw [boundary, ho, hnone, if_neg Bool.false_ne_true]
  have e := hp (threeDots t)
  rw [setOp_self ho, hnext hd] at e
  rw [hb]
  refine ⟨e, ?_⟩
  rcases performCycle_cases (threeDots t) with ⟨khost, -⟩ | ⟨-, hf, -⟩
  · rw [e] at khost
    exact khost
  · rw [ho] at hf
    rw [hf] at hfetch
    cases hfetch

/-- One more cycle inside the operation. -/
theorem Running.timed (h : Running n s op t) (hp : Performs op act fun _ => next)
    (hop : (opIsNone op || opIsFetch op) = false) (hnext : opIsNone next = false) : Running (n + 1) s next (timed next act t) :=
  h.cycle (h.acts hp hop fun _ => rfl) hnext

/-- The last cycle of the operation. -/
theorem Running.ends (h : Running n s op t) (hp : Performs op act fun _ => .none) (hop : (opIsNone op || opIsFetch op) = false)
    (m : Nat) : runWhile inOperation (n + m + 1) s = Machine.timed .none act t :=
  h.last (h.acts hp hop fun _ => rfl) m

/-- The cycles of this operation, from `first` on, are the five of taking an interrupt. -/
structure Enters (vector : Addr) (brk : Bool) (first : Op) (op : Nat → Byte → Op) : Prop where
  three : Performs first (fun u => (enterCycle vector brk 3 0 u).2) fun _ => op 4 0
  four : Performs (op 4 0) (fun u => (enterCycle vector brk 4 0 u).2) fun _ => op 5 0
  five : Performs (op 5 0) (fun u => (enterCycle vector brk 5 0 u).2) fun _ => op 6 0
  six : Performs (op 6 0) (fun u => (enterCycle vector brk 6 0 u).2) fun u => op 7 (enterCycle vector brk 6 0 u).1
  seven : ∀ lo, Performs (op 7 lo) (fun u => (enterCycle vector brk 7 lo u).2) fun _ => .none
  inside : ∀ k lo, opIsNone (op k lo) = false ∧ opIsFetch (op k lo) = false

/-- Taking an interrupt, cycle by cycle. -/
theorem Running.enterInterrupt {vector : Addr} {brk : Bool} {first : Op} {op : Nat → Byte → Op} (h : Running n s first t)
    (he : Enters vector brk first op) (hfirst : (opIsNone first || opIsFetch first) = false) (m : Nat) :
    runWhile inOperation (n + 4 + m + 1) s = enterInterrupt vector brk op t := by
  have hop := fun k lo => Bool.or_eq_false_iff.2 (he.inside k lo)
  have hin := fun k lo => (he.inside k lo).1
  have h5 := ((h.timed he.three hfirst (hin 4 0)).timed he.four (hop 4 0) (hin 5 0)).timed he.five (hop 5 0) (hin 6 0)
  exact (h5.cycle (h5.acts he.six (hop 6 0) fun _ => rfl) (hin 7 _)).ends (he.seven _) (hop 7 _) m

theorem enters_brk : Enters Config.irqVector true (.insn 0x00 [] 3 7) fun k lo => .insn 0x00 [lo] k 7 :=
  ⟨fun _ => rfl, fun _ => rfl, fun _ => rfl, fun _ => rfl, fun _ _ => rfl, fun _ _ => ⟨rfl, rfl⟩⟩

theorem enters_irq : Enters Config.irqVector false (.irqSeq 3 0) .irqSeq :=
  ⟨fun _ => rfl, fun _ => rfl, fun _ => rfl, fun _ => rfl, fun _ _ => rfl, fun _ _ => ⟨rfl, rfl⟩⟩

theorem enters_nmi : Enters Config.nmiVector false (.nmiSeq 3 0) .nmiSeq :=
  ⟨fun _ => rfl, fun _ => rfl, fun _ => rfl, fun _ => rfl, fun _ _ => rfl, fun _ _ => ⟨rfl, rfl⟩⟩

/-- Returning from an interrupt, cycle by cycle. -/
theorem Running.returnFromInterrupt (h : Running n s (.insn 0x40 [] 4 6) t) (m : Nat) :
    runWhile inOperation (n + 2 + m + 1) s = returnFromInterrupt t := by
  have four : Performs (.insn 0x40 [] 4 6) (fun u => (returnCycle 4 0 u).2) fun _ => .insn 0x40 [0] 5 6 := fun _ => rfl
  have five : Performs (.insn 0x40 [0] 5 6) (fun u => (returnCycle 5 0 u).2) fun u => .insn 0x40 [(returnCycle 5 0 u).1] 6 6 :=
    fun _ => rfl
  have six : ∀ lo, Performs (.insn 0x40 [lo] 6 6) (fun u => (returnCycle 6 lo u).2) fun _ => .none := fun _ _ => rfl
  have h4 := h.timed four rfl rfl
  exact (h4.cycle (h4.acts five rfl fun _ => rfl) rfl).ends (six _) rfl m

end

/-! ## Code in RAM or PRG, as the cycles find it (R180) -/

/-- At t `C.PC` is here and the bytes of RAM and PRG are those of s, unless a fault has stopped the run. -/
def AtCode (s : State) (pc : Addr) (t : State) : Prop := halted t = false → t.cpu.pc = pc ∧ ∀ a, byteAt t a = byteAt s a

theorem AtCode.start (s : State) : AtCode s s.cpu.pc s := fun _ => ⟨rfl, fun _ => rfl⟩

section
variable {pc : Addr} (h : AtCode s pc t)
include h

/-- The dots before the next access leave the code where it is. -/
theorem AtCode.dots : AtCode s pc (threeDots t) := fun hd => by
  obtain ⟨hpc, hbytes⟩ := h (halted_of_threeDots hd)
  exact ⟨by rw [threeDots_cpu, hpc], fun a => by
    rw [byteAt_congr t (threeDots t) a (threeDots_ext_cart t) (threeDots_ext_bankSt t) (threeDots_prg t) (threeDots_ram t), hbytes]⟩

/-- The byte that the next access reads at `C.PC`. -/
theorem AtCode.read (hp : placeable pc = true) (hd : halted (threeDots t) = false) :
    (memRead (threeDots t) (threeDots t).cpu.pc).1 = byteAt s pc := by
  obtain ⟨hpc, hbytes⟩ := h.dots hd
  rw [hpc, memRead_placeable _ _ hp, hbytes]

/-- After a fetch `C.PC` is at the next byte. -/
theorem AtCode.fetch (next : Op) : AtCode s (pc + 1) (timed next (fun u => (fetchByte u).2) t) := fun hd => by
  have hdots := threeDots_of_timed hd
  obtain ⟨hpc, hbytes⟩ := h.dots hdots
  rw [timed_of_dots hdots]
  exact ⟨by simp [← hpc], fun a => by
    rw [byteAt_congr (threeDots t) _ a (by simp) (by simp) (by simp) (by simp), hbytes]⟩

end

/-! ## The choice at the boundary (R162) -/

/-- The four choices of the arbiter. -/
theorem boundary_cases (ho : u.cpu.op = .none) :
    (∃ page k, (boundary u).cpu.op = .dma page 1 k 0) ∨
    boundary u = setOp (setArb u { u.arb with nmiPending := false }) (.nmiSeq 1 0) ∨
    boundary u = setOp u (.irqSeq 1 0) ∨ boundary u = setOp u .fetch := by
  rw [boundary_of_none ho]
  unfold arbitrate
  split
  · exact .inl ⟨_, _, rfl⟩
  · split
    · exact .inr (.inl rfl)
    · split
      · exact .inr (.inr (.inl rfl))
      · exact .inr (.inr (.inr rfl))

theorem boundary_fetch (ho : u.cpu.op = .none) (h : (boundary u).cpu.op = .fetch) : boundary u = setOp u .fetch := by
  rcases boundary_cases ho with ⟨_, _, e⟩ | e | e | e
  · simp [e] at h
  · simp [e] at h
  · simp [e] at h
  · exact e

theorem boundary_irq {k : Nat} {lo : Byte} (ho : u.cpu.op = .none) (h : (boundary u).cpu.op = .irqSeq k lo) :
    boundary u = setOp u (.irqSeq 1 0) := by
  rcases boundary_cases ho with ⟨_, _, e⟩ | e | e | e
  · simp [e] at h
  · simp [e] at h
  · exact e
  · simp [e] at h

theorem boundary_nmi {k : Nat} {lo : Byte} (ho : u.cpu.op = .none) (h : (boundary u).cpu.op = .nmiSeq k lo) :
    boundary u = setOp (setArb u { u.arb with nmiPending := false }) (.nmiSeq 1 0) := by
  rcases boundary_cases ho with ⟨_, _, e⟩ | e | e | e
  · simp [e] at h
  · exact e
  · simp [e] at h
  · simp [e] at h

/-! ## The first cycle (R165, R168, R180) -/

/-! A read does not see the operation it belongs to. -/

theorem ppuRegRead_setOp (s : State) (o : Op) (r : BitVec 3) :
    ppuRegRead (setOp s o) r = ((ppuRegRead s r).1, setOp (ppuRegRead s r).2 o) := by
  cases h : s.ext.fullPpu
  · rw [ppuRegRead_absent h, ppuRegRead_absent (s := setOp s o) h]
  · rw [ppuRegRead_present h, ppuRegRead_present (s := setOp s o) h]
    rfl

theorem ppuStatusBits_setOp (s : State) (o : Op) :
    ppuStatusBits (setOp s o) = ((ppuStatusBits s).1, setOp (ppuStatusBits s).2 o) := by
  cases h : s.ext.fullPpu
  · rw [ppuStatusBits_absent h, ppuStatusBits_absent (s := setOp s o) h]
  · rw [ppuStatusBits_present h, ppuStatusBits_present (s := setOp s o) h]
    rfl

theorem ppuTargetRead_setOp (s : State) (o : Op) (a : Addr) :
    ppuTargetRead (setOp s o) a = ((ppuTargetRead s a).1, setOp (ppuTargetRead s a).2 o) := by
  by_cases h : a.toNat % 8 = 2
  · rw [ppuTargetRead_status h, ppuTargetRead_status h, ppuStatusRead, ppuStatusBits_setOp]
    rfl
  · rw [ppuTargetRead_external h, ppuTargetRead_external h, ppuRegRead_setOp]

theorem apuIoRead_setOp (s : State) (o : Op) (a : Addr) :
    apuIoRead (setOp s o) a = ((apuIoRead s a).1, setOp (apuIoRead s a).2 o) := by
  cases h : s.ext.apuIo
  · rw [apuIoRead_absent h, apuIoRead_absent (s := setOp s o) h]
  · rw [apuIoRead_present h, apuIoRead_present (s := setOp s o) h]
    rfl

theorem cartLowRead_setOp (s : State) (o : Op) (a : Addr) :
    cartLowRead (setOp s o) a = ((cartLowRead s a).1, setOp (cartLowRead s a).2 o) := by
  cases h : s.ext.cart
  · rw [cartLowRead_absent h, cartLowRead_absent (s := setOp s o) h]
  · rw [cartLowRead_present h, cartLowRead_present (s := setOp s o) h]
    rfl

theorem memRead_setOp (s : State) (o : Op) (a : Addr) : memRead (setOp s o) a = ((memRead s a).1, setOp (memRead s a).2 o) := by
  have htarget : targetRead (setOp s o) a = ((targetRead s a).1, setOp (targetRead s a).2 o) := by
    unfold targetRead
    cases route true a
    case ppuReg => exact ppuTargetRead_setOp s o a
    case apuIo => exact apuIoRead_setOp s o a
    case cartLow => exact cartLowRead_setOp s o a
    all_goals rfl
  rw [memRead, memRead, htarget]
  unfold finishRead
  cases (targetRead s a).1 <;> rfl

theorem fetchByte_setOp (s : State) (o : Op) : fetchByte (setOp s o) = ((fetchByte s).1, setOp (fetchByte s).2 o) := by
  simp only [fetchByte, setOp_cpu_pc, memRead_setOp]
  rfl

theorem dummyRead_setOp (s : State) (o : Op) : dummyRead (setOp s o) = setOp (dummyRead s) o := by
  simp only [dummyRead, setOp_cpu_pc, memRead_setOp]

/-- The fetch cycle of one of the ten instructions, from RAM or PRG (R180). -/
theorem acts_fetch {kind : OpKind} (hb : boundary (threeDots s) = setOp (threeDots s) .fetch) (hpc : placeable s.cpu.pc = true)
    (hk : byteAt s s.cpu.pc = kind.opcode) : Acts s (fun u => (fetchByte u).2) (.insn kind.opcode [] 2 kind.cycles) := by
  intro hd
  have hbyte : (fetchByte (threeDots s)).1 = kind.opcode := ((AtCode.start s).read hpc hd).trans hk
  have e : performCycle (setOp (threeDots s) .fetch) = fetchCycle (setOp (threeDots s) .fetch) := rfl
  rw [hb, e, fetchCycle, fetchByte_setOp, hbyte]
  simp only [opKind_eq_some_iff.2 (rfl : kind.opcode = kind.opcode)]
  exact ⟨rfl, fetchByte_host _⟩

/-- The first cycle of the IRQ service. -/
theorem acts_irq (hb : boundary (threeDots s) = setOp (threeDots s) (.irqSeq 1 0)) : Acts s dummyRead (.irqSeq 2 0) := by
  intro _
  rw [hb, performCycle_irqSeq_first (setOp_cpu_op _ _), dummyRead_setOp]
  exact ⟨rfl, dummyRead_host _⟩

/-- The request cleared, as the arbiter does when it takes the NMI (R162). -/
def acknowledgeNmi (s : State) : State := setArb s { s.arb with nmiPending := false }

/-- The first cycle of the NMI service. -/
theorem acts_nmi (hb : boundary (threeDots s) = setOp (acknowledgeNmi (threeDots s)) (.nmiSeq 1 0)) :
    Acts s (fun u => dummyRead (acknowledgeNmi u)) (.nmiSeq 2 0) := by
  intro _
  have e : ∀ u, performCycle (setOp u (.nmiSeq 1 0)) = setOp (dummyRead (setOp u (.nmiSeq 1 0))) (.nmiSeq 2 0) := fun _ => rfl
  rw [hb, e, dummyRead_setOp]
  exact ⟨rfl, dummyRead_host _⟩

/-! ## The ten instructions (R174 to R184) -/

theorem placeable_head {a : Addr} {k : Nat} (h : inMemory a (k + 1) = true) : placeable a = true := by
  rw [inMemory, Bool.and_eq_true] at h
  exact h.1

theorem placeable_two {a : Addr} {k : Nat} (h : inMemory a (k + 2) = true) : placeable a = true ∧ placeable (a + 1) = true := by
  rw [inMemory, Bool.and_eq_true] at h
  exact ⟨h.1, placeable_head h.2⟩

theorem lowByte_joinBytes (hi lo : Byte) : lowByte (joinBytes hi lo) = lo := by
  have := lo.isLt
  apply BitVec.eq_of_toNat_eq
  rw [lowByte_toNat, joinBytes_toNat]
  omega

theorem highByte_joinBytes (hi lo : Byte) : highByte (joinBytes hi lo) = hi := by
  have := lo.isLt
  apply BitVec.eq_of_toNat_eq
  rw [highByte_toNat, joinBytes_toNat]
  omega

section
variable {addr : Addr} (hlo : placeable (s.cpu.pc + 1) = true) (hhi : placeable (s.cpu.pc + 1 + 1) = true)
  (hlow : byteAt s (s.cpu.pc + 1) = lowByte addr) (hhigh : byteAt s (s.cpu.pc + 1 + 1) = highByte addr)
include hlo hhi hlow hhigh

/-- JMP, its operand in RAM or PRG: the low byte is fetched, and the high byte goes into `C.PC` at once. -/
theorem exec_jmpAbs_run (hfetch : Running 1 s (.insn 0x4C [] 2 3) (fetchOpcode 0x4C 3 s))
    (hcode : AtCode s (s.cpu.pc + 1) (fetchOpcode 0x4C 3 s)) :
    exec (.jmpAbs addr) s = .next (runWhile inOperation longestOperation s) := by
  have two : Performs (.insn 0x4C [] 2 3) (fun u => (fetchByte u).2) fun u => .insn 0x4C [(fetchByte u).1] 3 3 := fun _ => rfl
  have three : Performs (.insn 0x4C [lowByte addr] 3 3)
    (fun u => setPc (memRead u u.cpu.pc).2 (joinBytes (memRead u u.cpu.pc).1 (lowByte addr))) fun _ => .none := fun _ => rfl
  have low := hfetch.cycle (hfetch.acts (next := .insn 0x4C [lowByte addr] 3 3) two rfl fun hd =>
    congrArg (fun lo => Op.insn 0x4C [lo] 3 3) ((hcode.read hlo hd).trans hlow)) rfl
  have jump := (low.acts three rfl fun _ => rfl).congr (act' := fun u => setPc (memRead u u.cpu.pc).2 addr) fun hd => by
    simp only [(hcode.fetch _).read hhi hd, hhigh, joinBytes_high_low]
  exact congrArg Host.Outcome.next (low.last jump 511).symm

/-- STA, its operand in RAM or PRG: both bytes are fetched, and the write comes last. -/
theorem exec_staAbs_run (hfetch : Running 1 s (.insn 0x8D [] 2 4) (fetchOpcode 0x8D 4 s))
    (hcode : AtCode s (s.cpu.pc + 1) (fetchOpcode 0x8D 4 s)) :
    exec (.staAbs addr) s = .next (runWhile inOperation longestOperation s) := by
  have two : Performs (.insn 0x8D [] 2 4) (fun u => (fetchByte u).2) fun u => .insn 0x8D [(fetchByte u).1] 3 4 := fun _ => rfl
  have three : Performs (.insn 0x8D [lowByte addr] 3 4) (fun u => (fetchByte u).2)
    fun u => .insn 0x8D [lowByte addr, (fetchByte u).1] 4 4 := fun _ => rfl
  have four : Performs (.insn 0x8D [lowByte addr, highByte addr] 4 4)
    (fun u => memWrite u (joinBytes (highByte addr) (lowByte addr)) u.cpu.a) fun _ => .none := fun _ => rfl
  rw [joinBytes_high_low] at four
  have low := hfetch.cycle (hfetch.acts (next := .insn 0x8D [lowByte addr] 3 4) two rfl fun hd =>
    congrArg (fun lo => Op.insn 0x8D [lo] 3 4) ((hcode.read hlo hd).trans hlow)) rfl
  have high := low.cycle (low.acts (next := .insn 0x8D [lowByte addr, highByte addr] 4 4) three rfl fun hd =>
    congrArg (fun hi => Op.insn 0x8D [lowByte addr, hi] 4 4) (((hcode.fetch _).read hhi hd).trans hhigh)) rfl
  exact congrArg Host.Outcome.next (high.ends four rfl 510).symm

end

section
variable {kind : OpKind} {k : Nat} {i : Instr}

/-- At a boundary where the arbiter will choose an instruction, one of the ten, its operands in RAM or PRG. -/
theorem exec_of_decodeOperands (hb : boundary (threeDots s) = setOp (threeDots s) .fetch) (hpc : placeable s.cpu.pc = true)
    (hk : byteAt s s.cpu.pc = kind.opcode) (hin : inMemory (s.cpu.pc + 1) k = true)
    (hd : decodeOperands kind (bytesAt s (s.cpu.pc + 1) k) = .ok (i, [])) :
    exec i s = .next (runWhile inOperation longestOperation s) := by
  have hfetch : Running 1 s (.insn kind.opcode [] 2 kind.cycles) (fetchOpcode kind.opcode kind.cycles s) :=
    (Running.start s).cycle (acts_fetch hb hpc hk) rfl
  have hcode : AtCode s (s.cpu.pc + 1) (fetchOpcode kind.opcode kind.cycles s) := (AtCode.start s).fetch _
  cases kind
  case sei | cli | nop =>
    obtain ⟨rfl, -⟩ := Prod.mk.inj (Except.ok.inj hd)
    exact congrArg Host.Outcome.next (hfetch.ends (fun _ => rfl) rfl 512).symm
  case php =>
    obtain ⟨rfl, -⟩ := Prod.mk.inj (Except.ok.inj hd)
    have two := hfetch.timed (act := dummyRead) (next := .insn 0x08 [] 3 3) (fun _ => rfl) rfl rfl
    exact congrArg Host.Outcome.next (two.ends (fun _ => rfl) rfl 511).symm
  case plp =>
    obtain ⟨rfl, -⟩ := Prod.mk.inj (Except.ok.inj hd)
    have two := hfetch.timed (act := dummyRead) (next := .insn 0x28 [] 3 4) (fun _ => rfl) rfl rfl
    have three := two.timed (act := dummyStackRead) (next := .insn 0x28 [] 4 4) (fun _ => rfl) rfl rfl
    exact congrArg Host.Outcome.next (three.ends (fun _ => rfl) rfl 510).symm
  case rti =>
    obtain ⟨rfl, -⟩ := Prod.mk.inj (Except.ok.inj hd)
    have two := hfetch.timed (act := dummyRead) (next := .insn 0x40 [] 3 6) (fun _ => rfl) rfl rfl
    have three := two.timed (act := dummyStackRead) (next := .insn 0x40 [] 4 6) (fun _ => rfl) rfl rfl
    exact congrArg Host.Outcome.next (three.returnFromInterrupt 508).symm
  case brk =>
    rcases k with _ | k
    · cases hd
    · obtain ⟨rfl, -⟩ := Prod.mk.inj (Except.ok.inj hd)
      have two := hfetch.timed (act := fun u => (fetchByte u).2) (next := .insn 0x00 [] 3 7) (fun _ => rfl) rfl rfl
      exact congrArg Host.Outcome.next (two.enterInterrupt enters_brk rfl 507).symm
  case ldaImm =>
    rcases k with _ | k
    · cases hd
    · obtain ⟨rfl, -⟩ := Prod.mk.inj (Except.ok.inj hd)
      have himm := hcode.read (placeable_head hin)
      have two : Performs (.insn 0xA9 [] 2 2) (fun u => loadImmediate (fetchByte u).2 (fetchByte u).1) fun _ => .none := fun _ => rfl
      have hload := (hfetch.acts two rfl fun _ => rfl).congr (act' := fun u => loadImmediate (fetchByte u).2 (byteAt s (s.cpu.pc + 1)))
        fun hdots => congrArg (loadImmediate _) (himm hdots)
      exact congrArg Host.Outcome.next (hfetch.last hload 512).symm
  case jmpAbs =>
    rcases k with _ | _ | k
    · cases hd
    · cases hd
    · obtain ⟨rfl, -⟩ := Prod.mk.inj (Except.ok.inj hd)
      obtain ⟨hlo, hhi⟩ := placeable_two hin
      exact exec_jmpAbs_run hlo hhi (lowByte_joinBytes _ _).symm (highByte_joinBytes _ _).symm hfetch hcode
  case staAbs =>
    rcases k with _ | _ | k
    · cases hd
    · cases hd
    · obtain ⟨rfl, -⟩ := Prod.mk.inj (Except.ok.inj hd)
      obtain ⟨hlo, hhi⟩ := placeable_two hin
      exact exec_staAbs_run hlo hhi (lowByte_joinBytes _ _).symm (highByte_joinBytes _ _).symm hfetch hcode

end

/-! ## An opcode outside R89 (R186, R190) -/

/-- At a boundary where the arbiter will choose an instruction, an opcode outside the table, in RAM or PRG. -/
theorem exec_unmodelledOpcode_run (hb : boundary (threeDots s) = setOp (threeDots s) .fetch) (hpc : placeable s.cpu.pc = true)
    {op : Byte} (hk : byteAt s s.cpu.pc = op) (hkind : opKind op = none) :
    exec (.unmodelledOpcode op) s = .next (runWhile inOperation longestOperation s) := by
  cases hd : halted (threeDots s)
  case true =>
    have e : cpuCycle s = threeDots s := by simp only [cpuCycle, unlessHalted, hd, if_true]
    have hends : runWhile inOperation longestOperation s = threeDots s :=
      (runWhile_ends 513 (by rw [e, inOperation_halted hd])).trans e
    rw [hends]
    exact congrArg Host.Outcome.next (if_pos hd)
  case false =>
    have hbyte : (fetchByte (threeDots s)).1 = op := ((AtCode.start s).read hpc hd).trans hk
    have hexec : exec (.unmodelledOpcode op) s = .next (handOver op (threeDots s)) :=
      congrArg Host.Outcome.next (if_neg (by simp [hd]))
    have hcycle : cpuCycle s = unlessHalted countCycle (fetchCycle (setOp (threeDots s) .fetch)) := by
      rw [cpuCycle_of_dots hd, hb]
      rfl
    rw [fetchCycle, fetchByte_setOp, hbyte] at hcycle
    simp only [hkind, setOp_ext, fetchByte_ext_cpuExec] at hcycle
    rw [hexec]
    cases hx : (threeDots s).ext.cpuExec
    case false =>
      have e : cpuCycle s = refuseOpcode (setOp (fetchByte (threeDots s)).2 .fetch) op := by
        rw [hcycle, hx, if_neg Bool.false_ne_true, unlessHalted, if_pos (halted_refuseOpcode _ op)]
      rw [handOver_refused hx, ← e]
      exact congrArg Host.Outcome.next (runWhile_ends 513 (by rw [e]; exact inOperation_halted (halted_refuseOpcode _ op))).symm
    case true =>
      have hrun : halted (setOp (fetchByte (threeDots s)).2 (.external op 2)) = false := by
        rw [halted, setOp_host, fetchByte_host]
        exact hd
      have e : cpuCycle s = countCycle (setOp (fetchByte (threeDots s)).2 (.external op 2)) := by
        rw [hcycle, hx, if_pos rfl, unlessHalted]
        exact if_neg (Bool.eq_false_iff.1 hrun)
      have hin : inOperation (cpuCycle s) = true := inOperation_of_op (by rw [e]; exact hrun) (by rw [e]; rfl)
      have hgo : runWhile inOperation longestOperation s = runWhile inOperation 513 (cpuCycle s) := if_pos hin
      rw [handOver_engine hx, ← e, hgo]

/-! ## The step (R101, R162, R180; log 2) -/

/-- The instruction at `C.PC` in RAM or PRG, at a boundary where the arbiter will choose one. -/
theorem exec_of_decodeOp {n : Nat} {i : Instr} (hb : boundary (threeDots s) = setOp (threeDots s) .fetch)
    (hin : inMemory s.cpu.pc n = true) (hd : decodeOp (bytesAt s s.cpu.pc n) = .ok (i, [])) :
    exec i s = .next (runWhile inOperation longestOperation s) := by
  cases n with
  | zero => cases hd
  | succ n =>
    rw [inMemory, Bool.and_eq_true] at hin
    obtain ⟨hpc, hin⟩ := hin
    rw [bytesAt, decodeOp] at hd
    cases hkind : opKind (byteAt s s.cpu.pc) with
    | some kind =>
      simp only [hkind] at hd
      exact exec_of_decodeOperands hb hpc (opKind_eq_some_iff.1 hkind) hin hd
    | none =>
      simp only [hkind] at hd
      obtain ⟨rfl, -⟩ := Prod.mk.inj (Except.ok.inj hd)
      exact exec_unmodelledOpcode_run hb hpc rfl hkind

/-- At a boundary where the arbiter will choose the IRQ, the run is the IRQ service. -/
theorem exec_irqService_run (hb : boundary (threeDots s) = setOp (threeDots s) (.irqSeq 1 0)) :
    exec .irqService s = .next (runWhile inOperation longestOperation s) := by
  have second : Performs (.irqSeq 2 0) dummyRead fun _ => .irqSeq 3 0 := fun _ => rfl
  have two := ((Running.start s).cycle (acts_irq hb) rfl).timed second rfl rfl
  exact congrArg Host.Outcome.next (two.enterInterrupt enters_irq rfl 507).symm

/-! ## An NMI taken at the boundary (R162, R168) -/

/-- The NMI service at a boundary: the request is cleared before the first dummy read. -/
def takeNmi (s : State) : State :=
  enterInterrupt Config.nmiVector false .nmiSeq
    (timed (.nmiSeq 3 0) dummyRead (timed (.nmiSeq 2 0) (fun u => dummyRead (acknowledgeNmi u)) s))

theorem takeNmi_run (hb : boundary (threeDots s) = setOp (acknowledgeNmi (threeDots s)) (.nmiSeq 1 0)) :
    runWhile inOperation longestOperation s = takeNmi s := by
  have second : Performs (.nmiSeq 2 0) dummyRead fun _ => .nmiSeq 3 0 := fun _ => rfl
  have two := ((Running.start s).cycle (acts_nmi hb) rfl).timed second rfl rfl
  exact two.enterInterrupt enters_nmi rfl 507

theorem quiet_acknowledge : quietAction (fun u => dummyRead (acknowledgeNmi u)) := by
  intro s
  simp [sameParameters, registersKept, acknowledgeNmi]

/-- The first dummy read, the request cleared before it. -/
theorem acknowledged_after (h : unstopped s = true) :
    After 1 s { s.cpu with op := .nmiSeq 2 0 } s.ram (timed (.nmiSeq 2 0) (fun u => dummyRead (acknowledgeNmi u)) s) :=
  (After.zero h).timed (c' := s.cpu) quiet_acknowledge (.nmiSeq 2 0) (by simp [acknowledgeNmi]) (by simp [acknowledgeNmi])

/-- Before the entry: two dummy reads, the request cleared. -/
theorem takeNmi_reads (h : unstopped s = true) :
    After 2 s { s.cpu with op := .nmiSeq 3 0 } s.ram
      (timed (.nmiSeq 3 0) dummyRead (timed (.nmiSeq 2 0) (fun u => dummyRead (acknowledgeNmi u)) s)) :=
  (acknowledged_after h).dummyRead _

/-- What it gives the CPU and RAM is what the service gives them. -/
theorem takeNmi_after (h : unstopped s = true) :
    After 7 s
      { s.cpu with pc := prgRead s 0xFFFB ++ prgRead s 0xFFFA, s := s.cpu.s - 3, p := s.cpu.p ||| 0x04, op := .none }
      (stackFrame s.ram s.cpu.s s.cpu.pc ((s.cpu.p &&& 0xCF) ||| 0x20)) (takeNmi s) := by
  rw [← pushedStatus_irq]
  exact (takeNmi_reads h).enterInterrupt (vector := Config.nmiVector) (by decide) (by decide) false .nmiSeq

theorem takeNmi_openBus (h : unstopped s = true) : (takeNmi s).bus.openBus = prgRead s 0xFFFB :=
  (enterInterrupt_bus Config.nmiVector false .nmiSeq (takeNmi_reads h).unstopped (by decide)).trans ((takeNmi_reads h).prgRead _)

/-- After the cycle that clears the request, with `C.PC` in RAM or PRG, the first three dots have touched all else but the CPU's
side. -/
theorem acknowledged_eq (h : unstopped s = true) (hpc : placeable s.cpu.pc = true) :
    ∃ c b m k, timed (.nmiSeq 2 0) (fun u => dummyRead (acknowledgeNmi u)) s =
      withCpuSide (acknowledgeNmi (dots 3 s)) c b m k := by
  obtain ⟨c, b, m, hread⟩ := touches_memRead (a := s.cpu.pc) hpc (acknowledgeNmi (dots 3 s))
  have hpc' : (acknowledgeNmi (dots 3 s)).cpu.pc = s.cpu.pc := by rw [← threeDots_eq]; exact congrArg Cpu.pc (threeDots_cpu s)
  rw [timed_eq _ _ h, threeDots_eq, dummyRead, hpc', hread]
  exact ⟨_, _, _, _, rfl⟩

theorem withCpuSide_arb (s : State) (c : Cpu) (b : BusUnit) (m : Memory) (k : Nat) : (withCpuSide s c b m k).arb = s.arb := rfl

/-- With its code in RAM or PRG it leaves the arbiter to the dots, the request cleared after the first three. -/
theorem takeNmi_arb (h : unstopped s = true) (hpc : placeable s.cpu.pc = true) :
    (takeNmi s).arb = (dots 18 (acknowledgeNmi (dots 3 s))).arb := by
  obtain ⟨c, b, m, k, heq⟩ := acknowledged_eq h hpc
  have hack := acknowledged_after h
  have hread := (LeftToDots.start hack.unstopped).dummyRead (by rw [hack.cpu]; exact hpc) (.nmiSeq 3 0)
  obtain ⟨-, c', b', m', hdots⟩ := hread.enterInterrupt (vector := Config.nmiVector) (by decide) (by decide) false .nmiSeq
  rw [takeNmi, hdots, heq, dots_withCpuSide]
  exact withCpuSide_arb (dots 18 (acknowledgeNmi (dots 3 s))) ..

/-- Settles O57: at each choice of the arbiter the operation's cycles are those of the command. -/
theorem stepRunsTheDecodedInstruction : Obligations.StepRunsTheDecodedInstruction := by
  unfold Obligations.StepRunsTheDecodedInstruction
  intro s hs hb ho
  have hdots : (threeDots s).cpu.op = .none := by rw [threeDots_cpu, ho]
  refine ⟨fun n i t hop hin hd ht hdone => ?instruction, fun k lo t hop ht hdone => ?irq, fun k lo hop h hdone => ?nmi⟩
  case instruction =>
    have hrun := (exec_of_decodeOp (boundary_fetch hdots hop) hin hd).symm.trans ht
    exact step_of_run hs hb (Host.Outcome.next.inj hrun) hdone
  case irq =>
    have hrun := (exec_irqService_run (boundary_irq hdots hop)).symm.trans ht
    exact step_of_run hs hb (Host.Outcome.next.inj hrun) hdone
  case nmi =>
    have hafter := takeNmi_after h
    obtain ⟨htime, -⟩ := hafter.passes
    have hgoing : (takeNmi s).sched.frameDone = false := by rw [htime]; exact hdone
    refine ⟨takeNmi s, ?step, hafter.cpu, hafter.ram, takeNmi_openBus h, hafter.passes, fun hpc => takeNmi_arb h (placeable_head hpc)⟩
    rw [step_of_run hs hb (takeNmi_run (boundary_nmi hdots hop)) hgoing,
      settle_going (by rw [hgoing, halted_of_unstopped hafter.unstopped]; rfl)]

end Sys2Proof.Machine
end

section
/-! SUPPORT. When a run of dots ticks the mapper: at most once from dot 0 of a line (R208; O23), never where the decoder is not active
(R207; O24), and in the standard configuration at dot 261 of each active line (R210; O25). -/

namespace Sys2Proof.Machine

variable {n : Nat} {s : State}

/-! ## The rest of a line -/

/-- Without a fault after it, a dot moved the position (R103, R104, R250). -/
theorem ppuDot_halted_or_moved (s : State) :
    halted (ppuDot s) = true ∨ (ppuDot s).sched = schedAfterDot s.params (renderingEnabled s) s.sched := by
  rcases ppuDot_cases s with ⟨hh, e⟩ | ⟨-, -, e⟩ | ⟨-, -, e⟩
  · exact .inl (by rw [e, hh])
  · exact .inl (by rw [e]; rfl)
  · exact .inr (by rw [e, wholeDot_sched])

/-- With n more dots left in the line, a dot goes to the next one; the odd-frame skip wraps with at most one left (R104). -/
theorem ppuDot_inLine_cases (h : s.sched.dot + (n + 1) ≤ 341) :
    halted (ppuDot s) = true ∨ (ppuDot s).sched.dot = s.sched.dot + 1 ∨ ((ppuDot s).sched.dot = 0 ∧ n ≤ 1) := by
  rcases ppuDot_halted_or_moved s with hh | hsched
  · exact .inl hh
  · right
    rw [hsched]
    by_cases hd : s.sched.dot < 339
    · exact .inl (schedAfterDot_inLine _ _ hd).2
    · simp only [schedAfterDot]
      split
      · exact .inr ⟨rfl, by omega⟩
      · exact .inl rfl

/-- Dot 0 ticks nothing: its A12 is low (R204). -/
theorem dots_mapper_dot0 (hd : s.sched.dot = 0) (hn : n ≤ 1) : (dots n s).mapper = s.mapper := by
  obtain rfl | rfl : n = 0 ∨ n = 1 := by omega
  · rfl
  · exact ppuDot_mapper_low s (by rw [currentWord, hd, ppuBusWord_dot0])

/-- After a dot that leaves the gate set, the rest of the line ticks nothing (R208). -/
theorem dots_mapper_gated (hf : (ppuDot s).edge.firedLine = true) (h : s.sched.dot + (n + 1) ≤ 341) :
    (dots n (ppuDot s)).mapper = (ppuDot s).mapper := by
  induction n generalizing s with
  | zero => rfl
  | succ n ih =>
    rcases ppuDot_inLine_cases h with hh | hd | ⟨hd, hn⟩
    · rw [dots_halted hh]
    · have hne : (ppuDot s).sched.dot ≠ 0 := by omega
      rw [dots, ih (ppuDot_firedLine _ hf hne) (by omega), ppuDot_mapper_fired _ hf hne]
    · exact dots_mapper_dot0 hd hn

/-- A dot that ticks sets the gate (R206, R208). -/
theorem ppuDot_mapper_same_or_fired (s : State) :
    (ppuDot s).mapper = s.mapper ∨ (ppuDot s).mapper = mapperTick s.mapper ∧ (ppuDot s).edge.firedLine = true := by
  cases hh : halted s
  · rw [ppuDot_mapper_eq hh, ppuDot_edge_eq hh]
    split
    case isTrue hfires => exact .inr ⟨rfl, by rw [edgeNext, hfires, Bool.or_true]⟩
    case isFalse => exact .inl rfl
  · exact .inl (by rw [ppuDot_halted hh])

/-- The rest of a line ticks at most once. -/
theorem dots_mapper_inLine (h : s.sched.dot + n ≤ 341) :
    (dots n s).mapper = s.mapper ∨ (dots n s).mapper = mapperTick s.mapper := by
  induction n generalizing s with
  | zero => exact .inl rfl
  | succ n ih =>
    rw [dots]
    rcases ppuDot_mapper_same_or_fired s with hm | ⟨hm, hf⟩
    · rw [← hm]
      rcases ppuDot_inLine_cases h with hh | hd | ⟨hd, hn⟩
      · exact .inl (by rw [dots_halted hh])
      · exact ih (by omega)
      · exact ih (by omega)
    · exact .inr (by rw [dots_mapper_gated hf h, hm])

/-- Settles O23: a tick sets the gate, which keeps the dots up to the next dot 0 from ticking, and dot 0 has A12 low. -/
theorem oneTickPerLine : Obligations.OneTickPerLine := by
  unfold Obligations.OneTickPerLine
  intro n s
  refine ⟨fun hd hn => dots_mapper_inLine (by omega), fun hf hd hn => ?_⟩
  cases n with
  | zero => rfl
  | succ n =>
    have hne : s.sched.dot ≠ 0 := by omega
    rw [dots, dots_mapper_gated (ppuDot_firedLine s hf hne) hn, ppuDot_mapper_fired s hf hne]

/-! ## Where the decoder is not active (R205, R207) -/

/-- Rendering off. -/
theorem dots_mapper_renderingOff (h : renderingEnabled s = false) : (dots n s).mapper = s.mapper := by
  induction n generalizing s with
  | zero => rfl
  | succ n ih =>
    have hr : renderingEnabled (ppuDot s) = false := by simpa [renderingEnabled] using h
    rw [dots, ih hr, ppuDot_mapper_inactive s (by rw [renderingActive_eq, h, Bool.false_and])]

/-- Lines 240 to 260, and line 261 without P_PRERENDER_TICKS. -/
theorem dots_mapper_blank (hl : 240 ≤ s.sched.line) (hd : s.sched.dot ≤ 340)
    (hn : dotNumber s.sched.line s.sched.dot + n ≤ 341 * (if s.params.prerenderTicks then 261 else 262)) :
    (dots n s).mapper = s.mapper := by
  induction n generalizing s with
  | zero => rfl
  | succ n ih =>
    have hlast : dotNumber s.sched.line s.sched.dot + (n + 1) ≤ 341 * 262 := hn.trans (by split <;> decide)
    have hframe : InFrame s.sched := ⟨by unfold dotNumber at hlast; omega, by omega⟩
    have hinactive : renderingActive s s.sched.line = false := by
      have hvisible : ¬s.sched.line ≤ 239 := by omega
      cases hp : s.params.prerenderTicks
      · simp [renderingActive_eq, hvisible, hp]
      · have hprerender : s.sched.line ≠ 261 := by simp [hp, dotNumber] at hn; omega
        simp [renderingActive_eq, hvisible, hprerender]
    rw [dots, ← ppuDot_mapper_inactive s hinactive]
    rcases ppuDot_halted_or_moved s with hh | hsched
    · rw [dots_halted hh]
    · have hframe' := schedAfterDot_inFrame s.params (renderingEnabled s) hframe
      have hmove := schedAfterDot_cases (renderingEnabled s) hframe hsched.symm
      rw [← hsched] at hframe'
      have hdot' := hframe'.dot
      rcases hmove with ⟨-, hnext, -⟩ | ⟨hp, hzero⟩ | ⟨hp, hzero, -⟩
      · exact ih (by unfold dotNumber at hnext; omega) (by omega) (by rw [hnext, ppuDot_params]; omega)
      all_goals exact dots_mapper_dot0 (by unfold dotNumber at hzero; omega) (by omega)

/-- Settles O24: the gate of R207 is closed at every dot of the run, except dot (0, 0) after the odd-frame skip, whose A12 is low. -/
theorem noTickOutsideRendering : Obligations.NoTickOutsideRendering := by
  unfold Obligations.NoTickOutsideRendering
  exact fun n s => ⟨fun h3 h4 => dots_mapper_renderingOff (by simp only [renderingEnabled, h3, h4, Bool.or_self]),
    fun hl hd hn => dots_mapper_blank hl hd hn⟩

/-! ## The position after a stretch of dots (R104) -/

/-- Short of line 261's last dot, n dots move the position by n. -/
theorem dots_dotNumber (h : unstopped s = true) (hs : InFrame s.sched)
    (hn : dotNumber s.sched.line s.sched.dot + n ≤ 89340) :
    InFrame (dots n s).sched ∧
      dotNumber (dots n s).sched.line (dots n s).sched.dot = dotNumber s.sched.line s.sched.dot + n := by
  induction n with
  | zero => exact ⟨hs, rfl⟩
  | succ n ih =>
    obtain ⟨hframe, hpos⟩ := ih (by omega)
    rw [dots_succ, ppuDot_sched (unstopped_dots h n)]
    refine ⟨schedAfterDot_inFrame _ _ hframe, ?_⟩
    rcases schedAfterDot_cases _ hframe rfl with ⟨-, hnext, -⟩ | ⟨hp, -⟩ | ⟨hp, -⟩
    · rw [hnext]; omega
    · omega
    · omega

/-- The dots of one line. -/
theorem dots_inLine (h : unstopped s = true) (hd : s.sched.dot = 0) (hl : s.sched.line < 262) (hn : n < 340) :
    (dots n s).sched.line = s.sched.line ∧ (dots n s).sched.dot = n := by
  obtain ⟨hframe, hpos⟩ := dots_dotNumber (n := n) h ⟨hl, by omega⟩ (by unfold dotNumber; omega)
  have := hframe.dot
  unfold dotNumber at hpos
  omega

/-- Whole lines from the start of the frame. -/
theorem dots_wholeLines (h : unstopped s = true) (hl : s.sched.line = 0) (hd : s.sched.dot = 0) (hn : n ≤ 261) :
    (dots (341 * n) s).sched.line = n ∧ (dots (341 * n) s).sched.dot = 0 := by
  obtain ⟨hframe, hpos⟩ := dots_dotNumber (n := 341 * n) h ⟨by omega, by omega⟩ (by unfold dotNumber; omega)
  have := hframe.dot
  unfold dotNumber at hpos
  omega

/-! ## The standard configuration (R210) -/

/-- Rendering is on, with 8x8 sprites at pattern table 1 and the background at table 0; the filter is no longer than the low dots
before dot 261, and nothing stops the dots. -/
structure StandardConfiguration (s : State) : Prop where
  rendering : renderingEnabled s = true
  short : ctrlTall s.ppu.ctrl = false
  background : ctrlBackground s.ppu.ctrl = false
  sprites : ctrlSprite s.ppu.ctrl = true
  unstopped : unstopped s = true
  lowMin : s.params.a12LowMin ≤ 261

theorem StandardConfiguration.after_dots (h : StandardConfiguration s) (n : Nat) : StandardConfiguration (dots n s) :=
  ⟨by simpa [renderingEnabled] using h.rendering, by simpa using h.short, by simpa using h.background, by simpa using h.sprites,
    unstopped_dots h.unstopped n, by simpa using h.lowMin⟩

/-- A12 is low before dot 261 of any line (R202). -/
theorem StandardConfiguration.a12_low (h : StandardConfiguration s) (hd : s.sched.dot ≤ 260) :
    (currentWord s).getLsbD 12 = false := by
  have hlow : ¬(scheduleAddr s s.sched.line s.sched.dot).getLsbD 12 = true := by
    rw [scheduleAddr_a12_iff, h.background, slotOffset]
    rintro ⟨-, -, hhalf, htable⟩
    split at htable
    · omega
    · cases htable
  rw [currentWord, ppuBusWord_a12, Bool.eq_false_iff.2 hlow, Bool.and_false]

/-- A12 is high at dot 261 of an active line: the first sprite's pattern fetch (R203). -/
theorem StandardConfiguration.a12_high (h : StandardConfiguration s) (hactive : renderingActive s s.sched.line = true)
    (hd : s.sched.dot = 261) : (currentWord s).getLsbD 12 = true := by
  have hhigh : (scheduleAddr s s.sched.line 261).getLsbD 12 = true := by
    rw [scheduleAddr_a12_iff]
    exact ⟨by decide, by decide, by decide, by simp [spriteTable, h.short, h.sprites]⟩
  rw [currentWord, hd, ppuBusWord_a12, renderingActive_fetches s _ hactive, hhigh, Bool.and_self]

/-- The edge detector after a dot with A12 low: one more low dot (R206, R208). -/
theorem ppuDot_edge_low (h : halted s = false) (ha : (currentWord s).getLsbD 12 = false) :
    (ppuDot s).edge =
      { prevA12 := false
        lowRun := min (s.edge.lowRun + 1) s.params.a12LowMin
        firedLine := if s.sched.dot = 0 then false else s.edge.firedLine } := by
  rw [ppuDot_edge_eq h, ha, clearGate_edge]
  simp [edgeNext, edgeFires]

/-- The decoder after n low dots from dot 0 of a line: nothing has ticked, and the filter has counted them (R206, R208). -/
structure AfterLowDots (n : Nat) (s t : State) : Prop where
  mapper : t.mapper = s.mapper
  edge : 0 < n → t.edge.prevA12 = false ∧ t.edge.firedLine = false
  lowRun : min n s.params.a12LowMin ≤ t.edge.lowRun

theorem lt_of_renderingActive {l : Nat} (h : renderingActive s l = true) : l < 262 := by
  obtain ⟨-, hl⟩ := Bool.and_eq_true_iff.1 (renderingActive_fetches s l h)
  rw [renderingLine_iff] at hl
  omega

section
variable (h : StandardConfiguration s) (hd : s.sched.dot = 0) (hactive : renderingActive s s.sched.line = true)
include h hd hactive

theorem StandardConfiguration.afterLowDots (hn : n ≤ 261) : AfterLowDots n s (dots n s) := by
  induction n with
  | zero => exact ⟨rfl, fun h0 => absurd h0 (Nat.lt_irrefl 0), by simp⟩
  | succ n ih =>
    obtain ⟨hmapper, hedge, hlow⟩ := ih (by omega)
    obtain ⟨-, hdot⟩ := dots_inLine (n := n) h.unstopped hd (lt_of_renderingActive hactive) (by omega)
    have ha := (h.after_dots n).a12_low (by omega)
    have hnext := ppuDot_edge_low (halted_of_unstopped (h.after_dots n).unstopped) ha
    rw [hdot, dots_params] at hnext
    have hgate : (if n = 0 then false else (dots n s).edge.firedLine) = false := by
      split
      · rfl
      · exact (hedge (by omega)).2
    rw [hgate] at hnext
    rw [dots_succ]
    refine ⟨(ppuDot_mapper_low _ ha).trans hmapper, fun _ => by rw [hnext]; exact ⟨rfl, rfl⟩, ?_⟩
    rw [hnext]
    show min (n + 1) _ ≤ min ((dots n s).edge.lowRun + 1) _
    omega

/-- Dot 261 of the line ticks, and sets the gate: the filter has seen 261 low dots. -/
theorem StandardConfiguration.tick_dot261 :
    (ppuDot (dots 261 s)).mapper = mapperTick s.mapper ∧ (ppuDot (dots 261 s)).edge.firedLine = true := by
  obtain ⟨hline, hdot⟩ := dots_inLine (n := 261) h.unstopped hd (lt_of_renderingActive hactive) (by decide)
  obtain ⟨hmapper, hedge, hlow⟩ := h.afterLowDots hd hactive (Nat.le_refl 261)
  obtain ⟨hprev, hgate⟩ := hedge (by decide)
  have hstd := h.after_dots 261
  have hrun := halted_of_unstopped hstd.unstopped
  have hfilter : s.params.a12LowMin ≤ (dots 261 s).edge.lowRun := by
    have := h.lowMin
    omega
  have hactive' : renderingActive (dots 261 s) (dots 261 s).sched.line = true := by
    rw [hline, ← hactive]
    simp [renderingActive_eq, renderingEnabled]
  have hgate' : (clearGate (dots 261 s) (dots 261 s).sched.dot).edge = (dots 261 s).edge := by
    rw [clearGate, hdot, if_neg (by decide)]
  rw [ppuDot_mapper_eq hrun, ppuDot_edge_eq hrun, hgate', hstd.a12_high hactive' hdot, hactive', dots_params]
  simp [edgeNext, edgeFires, hprev, hgate, hfilter, hmapper]

/-- The line ticks once, at dot 261. -/
theorem StandardConfiguration.tick_inLine (hn : 262 ≤ n) (hn' : n ≤ 341) : (dots n s).mapper = mapperTick s.mapper := by
  obtain ⟨hmapper, hfired⟩ := h.tick_dot261 hd hactive
  obtain ⟨-, hdot⟩ := dots_inLine (n := 261) h.unstopped hd (lt_of_renderingActive hactive) (by decide)
  obtain ⟨k, rfl⟩ : ∃ k, n = 261 + (k + 1) := ⟨n - 262, by omega⟩
  rw [dots_add, dots, dots_mapper_gated hfired (by omega), hmapper]

end

section
variable (h : StandardConfiguration s) (hl : s.sched.line = 0) (hd : s.sched.dot = 0)
include h hl hd

/-- The visible lines tick once each. -/
theorem StandardConfiguration.ticks_visibleLines (hn : n ≤ 240) : (dots (341 * n) s).mapper = ticks n s.mapper := by
  induction n with
  | zero => rfl
  | succ n ih =>
    obtain ⟨hline, hdot⟩ := dots_wholeLines (n := n) h.unstopped hl hd (by omega)
    have hstd := h.after_dots (341 * n)
    have hactive : renderingActive (dots (341 * n) s) (dots (341 * n) s).sched.line = true := by
      have : n ≤ 239 := by omega
      simp [renderingActive_eq, hstd.rendering, hline, this]
    rw [Nat.mul_succ, dots_add, hstd.tick_inLine hdot hactive (by decide) (by decide), ih (by omega), ticks_succ]

/-- The lines after them tick no more, up to line 261, or to the end of the frame without P_PRERENDER_TICKS. -/
theorem StandardConfiguration.ticks_blankLines (hn : 341 * 240 ≤ n)
    (hn' : n ≤ 341 * (if s.params.prerenderTicks then 261 else 262)) : (dots n s).mapper = ticks 240 s.mapper := by
  obtain ⟨k, rfl⟩ := Nat.exists_eq_add_of_le hn
  obtain ⟨hline, hdot⟩ := dots_wholeLines (n := 240) h.unstopped hl hd (by decide)
  rw [dots_add, dots_mapper_blank (by rw [hline]) (by rw [hdot]; decide) (by rw [hline, hdot, dots_params]; exact hn'),
    h.ticks_visibleLines hl hd (Nat.le_refl 240)]

/-- The frame but for the last dot of line 261 is 240 ticking lines, 21 that tick nothing, and line 261. -/
theorem StandardConfiguration.ticks_frame :
    (dots 89341 s).mapper = ticks (if s.params.prerenderTicks then 241 else 240) s.mapper := by
  cases hp : s.params.prerenderTicks
  case false => exact h.ticks_blankLines hl hd (by decide) (by rw [hp]; decide)
  case true =>
    obtain ⟨hline, hdot⟩ := dots_wholeLines (n := 261) h.unstopped hl hd (by decide)
    have hstd := h.after_dots (341 * 261)
    have hactive : renderingActive (dots (341 * 261) s) (dots (341 * 261) s).sched.line = true := by
      rw [renderingActive_eq, hstd.rendering, hline, dots_params, hp]
      rfl
    have hbefore : (dots (341 * 261) s).mapper = ticks 240 s.mapper :=
      h.ticks_blankLines hl hd (by decide) (by rw [hp]; decide)
    have hlines : 89341 = 341 * 261 + 340 := by decide
    rw [hlines, dots_add, hstd.tick_inLine hdot hactive (by decide) (by decide), hbefore, ← ticks_succ 240]
    rfl

end

/-- Settles O25: 261 low dots satisfy the filter, dot 261 ticks, and the gate holds to the end of the line; the frame is its lines. -/
theorem standardConfigurationTicks : Obligations.StandardConfigurationTicks := by
  unfold Obligations.StandardConfigurationTicks
  intro s hrendering hshort hbackground hsprites hd hrun hlowMin
  have h : StandardConfiguration s := ⟨hrendering, hshort, hbackground, hsprites, hrun, hlowMin⟩
  refine ⟨fun hl => ?line, fun hl => h.ticks_frame hl hd⟩
  have hactive : renderingActive s s.sched.line = true := by
    rw [renderingActive_eq, h.rendering]
    simpa using hl
  exact ⟨fun n hn => (h.afterLowDots hd hactive hn).mapper, fun n hn hn' => h.tick_inLine hd hactive hn (by omega)⟩

end Sys2Proof.Machine
end

section
/-! SUPPORT. The host interface: what each command answers in each condition (R230 to R237), the state that RESET and construction
leave (R239, R270 to R273), and the commands that take time under a standing fault (R250, R251). -/

namespace Sys2Proof.Machine

variable {s : State}

/-! ## The gate of STEP and BUS_WRITE in the three conditions that do not act (R237) -/

theorem commandGate_closed (c : CommandName) (hc : s.host.closed = true) : commandGate c s = some (.fault (.closed c)) := by
  simp [commandGate, hc]

theorem commandGate_constructed (c : CommandName) (hc : s.host.closed = false) (hr : s.host.resetDone = false) :
    commandGate c s = some (.fault (.notReset c)) := by simp [commandGate, hc, hr]

theorem commandGate_faulted (c : CommandName) {r : FaultReason} (hc : s.host.closed = false) (hr : s.host.resetDone = true)
    (hf : s.host.fault = some r) : commandGate c s = some (.fault r) := by simp [commandGate, hc, hr, hf]

/-! ## BUS_WRITE (R235) -/

theorem exec_hostBusWrite_gated {n k : Nat} {r : Reply} (hg : commandGate .busWrite s = some r) :
    exec (.hostBusWrite n k) s = .next (answer s r) := by
  change execHostBusWrite n k s = _
  simp [execHostBusWrite, hg]

section
variable {n k : Nat} (hg : commandGate .busWrite s = none)
include hg

theorem exec_hostBusWrite_wideAddress (hn : 0xFFFF < n) :
    exec (.hostBusWrite n k) s = .next (raiseFault s (.addrOutOfRange n)) := by
  change execHostBusWrite n k s = _
  simp [execHostBusWrite, hg, hn]

theorem exec_hostBusWrite_wideValue (hn : n ≤ 0xFFFF) (hk : 0xFF < k) :
    exec (.hostBusWrite n k) s = .next (raiseFault s (.valueOutOfRange k)) := by
  change execHostBusWrite n k s = _
  simp [execHostBusWrite, hg, Nat.not_lt.2 hn, hk]

/-- With arguments in range it is a CPU write, and the reply. -/
theorem exec_hostBusWrite_write (hn : n ≤ 0xFFFF) (hk : k ≤ 0xFF) :
    exec (.hostBusWrite n k) s = .next (answer (memWrite s (BitVec.ofNat 16 n) (BitVec.ofNat 8 k)) .done) := by
  change execHostBusWrite n k s = _
  simp [execHostBusWrite, hg, Nat.not_lt.2 hn, Nat.not_lt.2 hk]

end

/-- Settles O52: the gate in each condition, and in Running the two range checks in their order; a CPU write leaves the host side. -/
theorem busWriteCommand : Obligations.BusWriteCommand := by
  unfold Obligations.BusWriteCommand
  intro n k s
  refine ⟨fun hc => exec_hostBusWrite_gated (commandGate_closed _ hc),
    fun hc hr => exec_hostBusWrite_gated (commandGate_constructed _ hc hr), fun hc hr hf => ?running⟩
  have hg := commandGate_running .busWrite hc hr hf
  refine ⟨exec_hostBusWrite_wideAddress hg, exec_hostBusWrite_wideValue hg,
    fun hn hk => ⟨_, exec_hostBusWrite_write hg hn hk, ?write⟩⟩
  rw [answer, memWrite_host]
  rfl

/-! ## READ_FRAME and CLOSE (R234, R236) -/

theorem exec_hostReadFrame (hc : s.host.closed = false) : exec .hostReadFrame s = .next (answer s (.frame s.host.frame)) := by
  change execHostReadFrame s = _
  simp [execHostReadFrame, hc]

theorem exec_hostReadFrame_closed (hc : s.host.closed = true) :
    exec .hostReadFrame s = .next (answer s (.fault (.closed .readFrame))) := by
  change execHostReadFrame s = _
  simp [execHostReadFrame, hc]

/-- Settles O54: the two conditions of READ_FRAME; CLOSE has one meaning. -/
theorem readFrameAndClose : Obligations.ReadFrameAndClose := by
  unfold Obligations.ReadFrameAndClose
  exact fun s => ⟨exec_hostReadFrame, exec_hostReadFrame_closed, rfl⟩

/-! ## RESET (R231, R270 to R273) -/

theorem exec_hostReset (hc : s.host.closed = false) : exec .hostReset s = .next (answer (resetFields s) .done) := by
  change execHostReset s = _
  simp [execHostReset, hc]

theorem exec_hostReset_closed (hc : s.host.closed = true) : exec .hostReset s = .next (answer s (.fault (.closed .reset))) := by
  change execHostReset s = _
  simp [execHostReset, hc]

/-- While no banking write has moved the mapping, `prg_read` is the image (R65; log 5). -/
theorem prgRead_powerOn (h : s.ext.bankSt = 0) (a : Addr) : prgRead s a = sparseRead s.prg a.toNat := by simp [prgRead, h]

/-- The reset vector under the power-on mapping (R57, R271). -/
theorem loadResetVector_powerOn (h : s.ext.bankSt = 0) :
    loadResetVector s = setPc s (sparseRead s.prg 0xFFFD ++ sparseRead s.prg 0xFFFC) := by
  rw [loadResetVector, prgRead_powerOn h, prgRead_powerOn h]
  rfl

/-- RESET loads the vector after the collaborators are at power-on, so from the image itself (R271, R273). -/
theorem resetFields_eq (s : State) :
    resetFields s = setPc (loadResetParameters
      { State.reset with
        host := { State.reset.host with closed := s.host.closed, inbox := s.host.inbox, reply := s.host.reply }
        ext := resetExternal s.ext
        prg := s.prg
        params := s.params }) (sparseRead s.prg 0xFFFD ++ sparseRead s.prg 0xFFFC) :=
  loadResetVector_powerOn rfl

/-- Settles O48: Closed, RESET only answers; else it is the reset fields, with the vector read under the power-on mapping. -/
theorem resetSetsEveryField : Obligations.ResetSetsEveryField := by
  unfold Obligations.ResetSetsEveryField
  refine fun s => ⟨exec_hostReset_closed, fun hc => ?_⟩
  rw [exec_hostReset hc, resetFields_eq, hc]
  rfl

/-! ## The reset state is legal (R270) -/

/-- State.reset is sound with any collaborators, and any image and parameters of their domains. -/
theorem Sound.of_reset {image : Memory} {g : Settings} (x : External) (hp : Memory.wf 0x8000 0x10000 image = true)
    (hg : g.valid = true) : Sound { State.reset with ext := x, prg := image, params := g } where
  position := rfl
  lowRun := Nat.zero_le _
  status := (by decide : statusStored 0x04 = true)
  op := rfl
  ram := rfl
  prg := hp
  fb := rfl
  frame := rfl
  begun := fun hi => Bool.noConfusion hi
  params := hg

/-- Settles O60: the reset state is sound with its own image and parameters, and in no STEP. -/
theorem resetIsLegal : Obligations.ResetIsLegal := by
  unfold Obligations.ResetIsLegal
  have h : Sound State.reset := .of_reset State.reset.ext (image := []) rfl rfl
  exact ⟨h.legal_of_idle rfl, rfl⟩

/-! ## A standing fault (R250, R251) -/

/-- Under a standing fault a command that takes time performs no dot and no CPU action. -/
theorem exec_halted (h : halted s = true) {i : Instr} (hi : takesTime i = true) : exec i s = .next s := by
  have htimed (next : Op) (act : State → State) := timed_halted next act h
  have hfetch := halted_fetchOpcode h
  cases i with
  | cpuCycle => exact congrArg _ (cpuCycle_halted h)
  | ppuDot => exact congrArg _ (ppuDot_halted h)
  | irqService => exact congrArg _ (halted_serviceInterrupt h _ _)
  | nmiService => exact congrArg _ (halted_serviceInterrupt h _ _)
  | brk pad => simp [exec, execBrk, hfetch, htimed, halted_enterInterrupt h]
  | php => simp [exec, execPhp, hfetch, htimed]
  | plp => simp [exec, execPlp, hfetch, htimed]
  | rti => simp [exec, execRti, hfetch, htimed, halted_returnFromInterrupt h]
  | cli => simp [exec, execCli, hfetch, htimed]
  | sei => simp [exec, execSei, hfetch, htimed]
  | ldaImm imm => simp [exec, execLdaImm, hfetch, htimed]
  | staAbs a => simp [exec, execStaAbs, hfetch, htimed]
  | nop => simp [exec, execNop, hfetch, htimed]
  | jmpAbs a => simp [exec, execJmpAbs, hfetch, htimed]
  | unmodelledOpcode op => simp [exec, execUnmodelledOpcode, unlessHalted, threeDots_halted h, h]
  | _ => exact Bool.noConfusion hi

/-- Settles O53: the gate answers the standing fault, READ_FRAME and RESET do not ask for it, and no time passes under it. -/
theorem faultIsSticky : Obligations.FaultIsSticky := by
  unfold Obligations.FaultIsSticky
  intro input n k r s hf
  refine ⟨fun hc hr => ?commands, fun i hi => exec_halted (by simp [halted, hf]) hi⟩
  exact ⟨exec_hostStep_gated (commandGate_faulted _ hc hr hf), exec_hostBusWrite_gated (commandGate_faulted _ hc hr hf),
    exec_hostReadFrame hc, _, exec_hostReset hc, rfl⟩

/-! ## Construction (R230, R239) -/

theorem Parameters.valid_iff (p : Parameters) :
    p.valid = true ↔ p.toFixedParameters = Config.fixedParameters ∧ p.toSettings.valid = true := by
  simp [Parameters.valid]

/-- The domains bind the positions alone, and the odd-frame skip where the frame ends at the dot it drops (log 11). -/
theorem Settings.valid_switches (skip prerender ext nmi : Bool) (low : Nat) (sp : Byte) :
    Settings.valid { Config.settings with
      oddFrameSkip := skip, prerenderTicks := prerender, extIrq := ext, nmiPresent := nmi, a12LowMin := low, resetS := sp } = true := by
  cases skip <;> rfl

/-- The instance that construction makes (R230). -/
def powerOn (image : Memory) (g : Settings) (x : External) : State :=
  let s := resetFields { State.reset with ext := x, prg := image, params := g }
  setHost s { s.host with resetDone := false }

section
variable {p : Parameters} {image : Memory} {g : Settings}

theorem construct_invalid (c : Cartridge) (x : External) (hp : p.valid = false) :
    construct p c x = .error (.parameterOutOfDomain p) := by simp [construct, hp]

theorem construct_unsupported (id : Nat) (m : Option Memory) (x : External) (hp : p.valid = true) :
    construct p { variant := .other id, prg := m } x = .error (.unsupportedMapper id) := by simp [construct, hp]

theorem construct_missing (x : External) (hp : p.valid = true) :
    construct p { variant := .mmc3, prg := none } x = .error .missingPrg := by simp [construct, hp]

theorem construct_malformed (x : External) (hp : p.valid = true) (hi : Memory.wf 0x8000 0x10000 image = false) :
    construct p { variant := .mmc3, prg := some image } x = .error .malformedPrg := by simp [construct, hp, hi]

theorem construct_ok (x : External) (hp : p.valid = true) (hi : Memory.wf 0x8000 0x10000 image = true) :
    construct p { variant := .mmc3, prg := some image } x = .ok (powerOn image p.toSettings x) := by
  simp [construct, hp, hi, powerOn]

theorem powerOn_legal (x : External) (hi : Memory.wf 0x8000 0x10000 image = true) (hg : g.valid = true) :
    legalState (powerOn image g x) = true :=
  have h : Sound (powerOn image g x) := { (Sound.of_reset x hi hg).resetFields with begun := fun hs => Bool.noConfusion hs }
  h.legal_of_idle rfl

/-- RESET of a new instance sets `H.reset_done` and changes nothing else. -/
theorem exec_hostReset_powerOn (image : Memory) (g : Settings) (x : External) :
    exec .hostReset (powerOn image g x) = .next
      { powerOn image g x with host := { (powerOn image g x).host with resetDone := true } } := rfl

end

/-- Settles O49: the errors in their order; else the new instance, which RESET leaves but for `H.reset_done`. -/
theorem constructionIsPowerOn : Obligations.ConstructionIsPowerOn := by
  unfold Obligations.ConstructionIsPowerOn
  intro p c image x id m
  refine ⟨fun skip prerender ext nmi low sp => ?hardware, fun hfixed => ?fixed, construct_invalid c x, fun hp => ?valid⟩
  case hardware => exact (Parameters.valid_iff _).2 ⟨rfl, Settings.valid_switches skip prerender ext nmi low sp⟩
  case fixed => exact Bool.eq_false_iff.2 fun hp => hfixed ((Parameters.valid_iff p).1 hp).1
  case valid =>
    refine ⟨construct_unsupported id m x hp, construct_missing x hp, construct_malformed x hp, fun hi => ?constructs⟩
    exact ⟨_, _, construct_ok x hp hi, exec_hostReset_powerOn image p.toSettings x, rfl,
      powerOn_legal x hi ((Parameters.valid_iff p).1 hp).2, ⟨rfl, rfl, rfl, rfl, rfl, rfl, rfl⟩, rfl⟩

end Sys2Proof.Machine
end
